-- ==== Sys2Proof/Word.lean ====
section
/-! DEFINITION. The word types of the sampler: the widths of its registers, its bus transactions and its phase codes. -/

namespace Sys2Proof

/-- A 32-bit register word (20_memory.md R60, R62), also the width of NOW and `t0`. -/
abbrev Word := BitVec 32

/-- An 8-bit value: a byte of the frame (30_encoding.md R87) or a stored pulse duration (R89). -/
abbrev Byte := BitVec 8

/-- The number of a one-wire line, as CTRL.LINE holds it (10_state.md R30). -/
abbrev LineIdx := BitVec 8

/-- A host bus transaction `{we, addr, wdata}`, 41 bits (30_encoding.md R80). -/
abbrev Transaction := BitVec 41

/-- The word index `addr[7:2]` of a register (20_memory.md R62). -/
abbrev WordIdx := BitVec 6

/-- A phase code, 4 bits (30_encoding.md R84). -/
abbrev PhaseCode := BitVec 4

/-- A 40-bit frame; the bit captured i-th is bit `39 - i` (30_encoding.md R87). -/
abbrev Frame := BitVec 40

/-- The levels on the `line_in[L]` pads at one tick: bit L is the level of line L (10_state.md R45). -/
abbrev LineLevels := BitVec 256

/-- The pulse file, `pulse[0]` to `pulse[39]` (10_state.md R40). -/
abbrev PulseFile := Vector Byte 40

end Sys2Proof
end

