-- ==== Sys2Proof/Config.lean ====
section
/-! DEFINITION. The configuration record of 00_scope.md R6 with the values this hardware takes, the constraints of R7, and the free value of R12. -/

namespace Sys2Proof.Config

/-- The parameters of 00_scope.md R6, under the spec's names. -/
structure Params where
  /-- `TICK_US`: length of one tick in microseconds. -/
  tickUs : Nat
  /-- `NOW_BITS`: width of NOW. -/
  nowBits : Nat
  /-- `TIMEOUT_US`: the watchdog bound of every wait phase. -/
  timeoutUs : Nat
  /-- `START_LOW_US`: how long the line is driven low. -/
  startLowUs : Nat
  /-- `RELEASE_US`: how long the line is driven high. -/
  releaseUs : Nat
  /-- `NBITS`: pulses per frame. -/
  nbits : Nat
  /-- `NBYTES`: bytes per frame. -/
  nbytes : Nat
  /-- `T_ZERO_MIN`: least duration that is a 0. -/
  tZeroMin : Nat
  /-- `T_ZERO_END`: least duration above the 0 zone. -/
  tZeroEnd : Nat
  /-- `T_ONE_MIN`: least duration that is a 1. -/
  tOneMin : Nat
  /-- `T_ONE_END`: least duration above the 1 zone. -/
  tOneEnd : Nat
  /-- `PULSE_BITS`: width of a stored pulse. -/
  pulseBits : Nat
  /-- `NUM_LINES`: an OPEN parameter, 1 to 256; this is its default (State.numLines holds the machine's own). -/
  numLines : Nat
  /-- `ADDR_BITS`: byte-address width of the register space. -/
  addrBits : Nat
  deriving DecidableEq, Repr

/-- The value column of 00_scope.md R6: "The \"value\" column is the value this hardware takes." -/
def params : Params where
  tickUs := 1
  nowBits := 32
  timeoutUs := 100
  startLowUs := 2000
  releaseUs := 1
  nbits := 40
  nbytes := 5
  tZeroMin := 15
  tZeroEnd := 40
  tOneMin := 60
  tOneEnd := 90
  pulseBits := 8
  numLines := 1
  addrBits := 8

/-- The range of the OPEN parameter NUM_LINES (00_scope.md R6, R7). -/
abbrev NumLinesOk (n : Nat) : Prop := 1 ≤ n ∧ n ≤ 256

/-- The constraints of 00_scope.md R7: "The sampler is only defined when they hold". -/
abbrev Params.Ok (p : Params) : Prop :=
  p.tZeroMin < p.tZeroEnd ∧ p.tZeroEnd ≤ p.tOneMin ∧ p.tOneMin < p.tOneEnd ∧
  p.tOneEnd ≤ p.timeoutUs + 1 ∧ 2000 ≤ p.startLowUs ∧ p.timeoutUs + 1 < 2 ^ p.pulseBits ∧
  NumLinesOk p.numLines ∧ p.nbits = 8 * p.nbytes

/-- The free draw of 00_scope.md R12, for a tick whose line levels no input gives: the levels of all
lines at the k-th such draw. It has no body, so nothing can be proved of its value (log entry 3). -/
opaque freeLineIn : Nat → LineLevels

end Sys2Proof.Config
end

