-- ==== Sys2Proof/Syntax.lean ====
section
/-! DEFINITION. The instructions: one constructor per row of spec/opcode_table.json. -/

namespace Sys2Proof

/-- The sampler's "instructions" (10_state.md R22, 30_encoding.md R81, R84): four host bus operations, each
with the operands of 30_encoding.md R83, and one tick rule per phase code. -/
inductive Instr where
  /-- START: request an attempt on a line (40_host_interface.md R101 to R103). -/
  | start (line : LineIdx)
  /-- SETLINE: select a line without starting (40_host_interface.md R104). -/
  | setline (line : LineIdx)
  /-- WR_IGN: a write to word index `a`, not CTRL, which does nothing (40_host_interface.md R105). -/
  | wrIgn (a : WordIdx) (wdata : Word)
  /-- RD: a read of word index `a` (40_host_interface.md R106). -/
  | rd (a : WordIdx)
  /-- PHASE_IDLE, code 0 (41_pulse_sampler.md R125). -/
  | phaseIdle
  /-- PHASE_START_LOW, code 1 (41_pulse_sampler.md R126). -/
  | phaseStartLow
  /-- PHASE_RELEASE, code 2 (41_pulse_sampler.md R127). -/
  | phaseRelease
  /-- PHASE_RESP_LOW, code 3 (41_pulse_sampler.md R128). -/
  | phaseRespLow
  /-- PHASE_RESP_HIGH, code 4 (41_pulse_sampler.md R129). -/
  | phaseRespHigh
  /-- PHASE_RESP_END, code 5 (41_pulse_sampler.md R130). -/
  | phaseRespEnd
  /-- PHASE_BIT_LOW, code 6 (41_pulse_sampler.md R131). -/
  | phaseBitLow
  /-- PHASE_BIT_HIGH, code 7 (41_pulse_sampler.md R132). -/
  | phaseBitHigh
  /-- PHASE_DECODE, code 8 (42_frame_decoder.md R160). -/
  | phaseDecode
  /-- PHASE_RESERVED, a code from 9 to 15, never produced (30_encoding.md R84). -/
  | phaseReserved (code : PhaseCode)
  deriving DecidableEq, Repr

/-- The two formats of spec/opcode_table.json: host bus operations and phase codes. -/
def Instr.isBus : Instr → Bool
  | .start _ | .setline _ | .wrIgn _ _ | .rd _ => true
  | .phaseIdle | .phaseStartLow | .phaseRelease | .phaseRespLow | .phaseRespHigh | .phaseRespEnd
  | .phaseBitLow | .phaseBitHigh | .phaseDecode | .phaseReserved _ => false

end Sys2Proof
end

