-- ==== Sys2Proof/WellFormed.lean ====
section
/-! DEFINITION. Which instructions have a word: the checks that their operands stand in the range of their row. -/

namespace Sys2Proof

/-- Well-formed instructions: WR_IGN names an offset other than CTRL (30_encoding.md R81 row 3), a
reserved phase is a code from 9 to 15 (R84); every other operand fills its field. -/
def Instr.wf : Instr → Bool
  | .wrIgn a _ => a != 0
  | .phaseReserved c => decide (9 ≤ c.toNat)
  | .start _ | .setline _ | .rd _ => true
  | .phaseIdle | .phaseStartLow | .phaseRelease | .phaseRespLow | .phaseRespHigh | .phaseRespEnd
  | .phaseBitLow | .phaseBitHigh | .phaseDecode => true

end Sys2Proof
end

