-- ==== Sys2Proof/Decode.lean ====
section
/-! DEFINITION. Decoding and encoding: a bus transaction by 30_encoding.md R81, a phase code by R84. -/

namespace Sys2Proof

/-- T[40]: 1 for a write, 0 for a read (30_encoding.md R80). -/
def Transaction.we (t : Transaction) : Bool := t.getLsbD 40

/-- T[39:32], the byte address (30_encoding.md R80). -/
def Transaction.addr (t : Transaction) : BitVec 8 := t.extractLsb' 32 8

/-- T[31:0], the write data (30_encoding.md R80). -/
def Transaction.wdata (t : Transaction) : Word := t.extractLsb' 0 32

/-- `addr[7:2]`, the word addressed; `addr[1:0]` is ignored (20_memory.md R62). -/
def Transaction.wordIdx (t : Transaction) : WordIdx := t.addr.extractLsb' 2 6

/-- `wdata[0]`, the START bit of a CTRL write (30_encoding.md R82). -/
def Transaction.startBit (t : Transaction) : Bool := t.wdata.getLsbD 0

/-- `wdata[15:8]`, LINE of a CTRL write (30_encoding.md R82, R83). -/
def Transaction.lineField (t : Transaction) : LineIdx := t.wdata.extractLsb' 8 8

/-- The transaction `{we, addr, wdata}` (30_encoding.md R80). -/
def Transaction.mk (we : Bool) (addr : BitVec 8) (wdata : Word) : Transaction :=
  BitVec.ofBool we ++ addr ++ wdata

/-- The operation a transaction selects: the rows of 30_encoding.md R81 in their order. It is total:
"there is no illegal transaction". -/
def decodeTransaction (t : Transaction) : Instr :=
  if t.we = true ∧ t.wordIdx = 0 ∧ t.startBit = true then .start t.lineField
  else if t.we = true ∧ t.wordIdx = 0 ∧ t.startBit = false then .setline t.lineField
  else if t.we = true then .wrIgn t.wordIdx t.wdata
  else .rd t.wordIdx

/-- The phase a code names (30_encoding.md R84); the codes 9 to 15 are reserved, and the row that holds
them is tried after PHASE_DECODE (spec/opcode_table.json). -/
def decodePhase (c : PhaseCode) : Instr :=
  match c.toNat with
  | 0 => .phaseIdle
  | 1 => .phaseStartLow
  | 2 => .phaseRelease
  | 3 => .phaseRespLow
  | 4 => .phaseRespHigh
  | 5 => .phaseRespEnd
  | 6 => .phaseBitLow
  | 7 => .phaseBitHigh
  | 8 => .phaseDecode
  | _ => .phaseReserved c

/-- An instruction word in one of the two formats of spec/opcode_table.json. -/
inductive InstrWord where
  /-- `bus_transaction_41` (30_encoding.md R80). -/
  | bus (t : Transaction)
  /-- `fsm_phase_4` (30_encoding.md R84). -/
  | phase (c : PhaseCode)
  deriving DecidableEq, Repr

/-- The decoder: total on words of both formats. -/
def decodeWord : InstrWord → Instr
  | .bus t => decodeTransaction t
  | .phase c => decodePhase c

/-- Why a number of bits is no instruction word. -/
inductive DecodeError where
  /-- More bits are set than the 41 of a transaction. -/
  | aboveTransaction
  /-- More bits are set than the 4 of a phase code. -/
  | abovePhaseCode
  deriving DecidableEq, Repr

/-- The word that `nbits` bits of value `w` stand for: fewer than the 41 bits of a transaction can only
hold a phase code (log entry 1). -/
def wordOfBits (nbits w : Nat) : Except DecodeError InstrWord :=
  if nbits < 41 then
    if w < 2 ^ 4 then .ok (.phase (BitVec.ofNat 4 w)) else .error .abovePhaseCode
  else
    if w < 2 ^ 41 then .ok (.bus (BitVec.ofNat 41 w)) else .error .aboveTransaction

/-- The instruction the decoder reads from bits numbered as spec/opcode_table.json numbers them. -/
def decodeTableWord (nbits w : Nat) : Option Instr :=
  match wordOfBits nbits w with
  | .ok word => some (decodeWord word)
  | .error _ => none

/-- The CTRL write data `{16'b0, LINE, 7'b0, START}` (30_encoding.md R82), ignored bits written 0. -/
def ctrlData (line : LineIdx) (start : Bool) : Word :=
  0#16 ++ line ++ 0#7 ++ BitVec.ofBool start

/-- The byte address of a word index, `addr[1:0]` written 0. -/
def wordAddr (a : WordIdx) : BitVec 8 := a ++ 0#2

/-- The word of an instruction, from the tables of 30_encoding.md R81, R82 and R84, with every ignored bit 0. -/
def encode : Instr → InstrWord
  | .start line => .bus (Transaction.mk true (wordAddr 0) (ctrlData line true))
  | .setline line => .bus (Transaction.mk true (wordAddr 0) (ctrlData line false))
  | .wrIgn a wdata => .bus (Transaction.mk true (wordAddr a) wdata)
  | .rd a => .bus (Transaction.mk false (wordAddr a) 0)
  | .phaseIdle => .phase 0
  | .phaseStartLow => .phase 1
  | .phaseRelease => .phase 2
  | .phaseRespLow => .phase 3
  | .phaseRespHigh => .phase 4
  | .phaseRespEnd => .phase 5
  | .phaseBitLow => .phase 6
  | .phaseBitHigh => .phase 7
  | .phaseDecode => .phase 8
  | .phaseReserved c => .phase c

end Sys2Proof
end

