-- ==== Sys2Proof/Machine/State.lean ====
section
/-! DEFINITION. The state of the sampler (10_state.md R20), the inputs of the other agents, the reasons a step stops, and the reset state. -/

namespace Sys2Proof.Machine

/-- The Read Outcome (30_encoding.md R85): "one of {Ok, Timeout, InvalidPulseWidth, ChecksumMismatch}". -/
inductive ReadOutcome where
  /-- A frame was decoded and its checksum matched. -/
  | ok
  /-- A watchdog bound was exceeded. -/
  | timeout
  /-- A measured duration fell outside both bit zones. -/
  | invalidPulseWidth
  /-- The frame's checksum did not match. -/
  | checksumMismatch
  deriving DecidableEq, Repr

/-- The OUTCOME code (30_encoding.md R85); all four codes are used. -/
def ReadOutcome.code : ReadOutcome → BitVec 2
  | .ok => 0
  | .timeout => 1
  | .invalidPulseWidth => 2
  | .checksumMismatch => 3

/-- One step of an agent other than the sampler's own rules (00_scope.md R8), as the model lists it. -/
inductive Input where
  /-- A tick falls, with these levels on the `line_in` pads (Tick and Environment). -/
  | tick (levels : LineLevels)
  /-- The host performs this bus transaction (Host). -/
  | host (t : Transaction)
  /-- One cycle with `rst` asserted, with the host access that falls in it, if any (Reset, 70_reset_and_hazards.md R240). -/
  | reset (access : Option Transaction)
  deriving DecidableEq, Repr

/-- The state: the sixteen elements of 10_state.md R20, then the model's own fields (log entries 2 to 6). -/
structure State where
  /-- `s.phase`, STATUS.PHASE. -/
  phase : PhaseCode
  /-- `s.t0`: NOW at entry to the current phase; hidden (R28, R48). -/
  t0 : Word
  /-- `s.bitidx`, STATUS.BITIDX: index of the bit being captured. -/
  bitidx : BitVec 6
  /-- `s.pulse[0..39]`, PULSE_W0 to PULSE_W9 (R40). -/
  pulse : PulseFile
  /-- `s.frame`, FRAME_W0 and FRAME_W1 (R33, R34). -/
  frame : Frame
  /-- `s.csum_calc`, DIAG.CSUM_CALC (R32). -/
  csumCalc : Byte
  /-- `s.hum`, HUMIDITY, unsigned tenths of %RH (R35). -/
  hum : BitVec 16
  /-- `s.temp`, TEMPERATURE, tenths of a degree in two's complement (R36). -/
  temp : BitVec 16
  /-- `s.busy`, STATUS.BUSY: an attempt is in progress. -/
  busy : Bool
  /-- `s.done`, STATUS.DONE: an attempt has ended since the last accepted START. -/
  done : Bool
  /-- `s.outcome`, STATUS.OUTCOME, meaningful only when `done` is 1. -/
  outcome : ReadOutcome
  /-- `s.cmderr`, STATUS.CMDERR: the last START write was rejected. -/
  cmderr : Bool
  /-- `s.failphase`, DIAG.FAILPHASE: the phase in which a Timeout occurred. -/
  failphase : PhaseCode
  /-- `s.failbit`, DIAG.FAILBIT: the lowest index of an out-of-zone pulse. -/
  failbit : BitVec 6
  /-- `s.line`, CTRL.LINE: the selected line. -/
  line : LineIdx
  /-- `s.now`, NOW: the free-running microsecond counter (R27). -/
  now : Word
  /-- The model's own: the OPEN parameter NUM_LINES of this machine (00_scope.md R6), which no step changes (log entry 6). -/
  numLines : Nat
  /-- The model's own: the levels on the `line_in` pads at the tick being run (R45, R46; log entry 4). -/
  lineIn : LineLevels
  /-- The model's own: what the agents do next, first element first (00_scope.md R8; log entry 2). -/
  inputs : List Input
  /-- The model's own: how many free draws of the line levels were taken (00_scope.md R12; log entry 3). -/
  draws : Nat
  /-- The model's own: the `rdata` the last host read returned (30_encoding.md R80; log entry 5). -/
  rdata : Word
  deriving DecidableEq, Repr

/-- Reasons the machine stops. None of the spec's fault outcomes is one: those end an attempt and the machine goes on (60_exceptions.md R211). -/
inductive Fault where
  /-- Raised by PHASE_BIT_HIGH when it captures a pulse while `bitidx` is 40 or more: 41_pulse_sampler.md R132
  gives the capture for indices 0 to 39 only and the pulse file has no other place. Safe: the machine stops,
  and 30_encoding.md R86 and the invariant State.Inv say that no run reaches it (log entry 9). -/
  | pulseIndexOutOfRange
  deriving DecidableEq, Repr

/-- Reasons an instruction has no meaning. -/
inductive Refusal where
  /-- Raised by an arm of exec for an instruction without a meaning yet. Safe: the machine stops. -/
  | notModelled (mnemonic : String)
  /-- Raised by PHASE_RESERVED: the codes 9 to 15 are "never produced" and have no rule (30_encoding.md R84;
  93_implementation_defined.md I8 treats them as `refuse`). Safe: the machine stops (log entry 8). -/
  | reservedPhase (code : PhaseCode)
  deriving DecidableEq, Repr

/-- The state right after reset: every element of 10_state.md R50 at its value there; the model's own
fields at the values of log entries 2 to 6. -/
def State.reset : State where
  phase := 0
  t0 := 0
  bitidx := 0
  pulse := Vector.replicate 40 0
  frame := 0
  csumCalc := 0
  hum := 0
  temp := 0
  busy := false
  done := false
  outcome := .ok
  cmderr := false
  failphase := 0
  failbit := 0x3F
  line := 0
  now := 0
  numLines := Config.params.numLines
  lineIn := BitVec.allOnes 256
  inputs := []
  draws := 0
  rdata := 0

end Sys2Proof.Machine
end

