-- ==== Sys2Proof/Machine/Ops.lean ====
section
/-! DEFINITION. The named operations on the state: time, the line, the pads, entering a phase, capturing a pulse, ending an attempt (the one shared operation of every fault outcome), beginning one, and reset. -/

namespace Sys2Proof.Machine

/-- The phase codes by name (30_encoding.md R84). -/
abbrev Phase.idle : PhaseCode := 0
abbrev Phase.startLow : PhaseCode := 1
abbrev Phase.release : PhaseCode := 2
abbrev Phase.respLow : PhaseCode := 3
abbrev Phase.respHigh : PhaseCode := 4
abbrev Phase.respEnd : PhaseCode := 5
abbrev Phase.bitLow : PhaseCode := 6
abbrev Phase.bitHigh : PhaseCode := 7
abbrev Phase.decode : PhaseCode := 8

/-- FAILBIT when no pulse is reported out of zone (10_state.md R32). -/
abbrev noFailbit : BitVec 6 := 0x3F

/-- `s.now <- n`, the part every tick shares: NOW counts in every phase (10_state.md R27, 41_pulse_sampler.md R120). -/
def State.advanceNow (s : State) : State := { s with now := s.now + 1 }

/-- `e` of the tick about to run: `(n - s.t0) mod 2^32` with `n = s.now + 1` (41_pulse_sampler.md R120). -/
def State.elapsed (s : State) : Word := s.now + 1 - s.t0

/-- `sample()`: the level of the selected line, and of no other (10_state.md R46). -/
def State.sample (s : State) : Bool := s.lineIn.getLsbD s.line.toNat

/-- `line_oe[L]`: the sampler drives only the selected line, and only in START_LOW and RELEASE (10_state.md R45). -/
def State.lineOe (s : State) (l : LineIdx) : Bool :=
  l == s.line && (s.phase == Phase.startLow || s.phase == Phase.release)

/-- `line_out[L]`: the level driven, 0 in START_LOW and 1 otherwise (10_state.md R45). -/
def State.lineOut (s : State) (l : LineIdx) : Bool :=
  !(l == s.line && s.phase == Phase.startLow)

/-- `s.phase <- p; s.t0 <- now`: enter a phase and stamp its start (00_scope.md R11, 41_pulse_sampler.md R123).
A tick applies it after `advanceNow`, so the stamp is its `n`; START applies it to the current NOW. -/
def State.enterPhase (s : State) (p : PhaseCode) : State := { s with phase := p, t0 := s.now }

/-- How every attempt ends, with or without a fault (60_exceptions.md R216): to IDLE with the line released,
BUSY <- 0, DONE <- 1, OUTCOME <- o. There is no return operation: the next START begins a new attempt (R217). -/
def State.endAttempt (s : State) (o : ReadOutcome) : State :=
  { s with phase := Phase.idle, busy := false, done := true, outcome := o }

/-- `raise Timeout(p, s.bitidx)` (41_pulse_sampler.md R124). -/
def State.raiseTimeout (s : State) (p : PhaseCode) : State :=
  { s.endAttempt .timeout with failphase := p }

/-- `raise InvalidPulseWidth(i)` (00_scope.md R11, 42_frame_decoder.md R160). -/
def State.raiseInvalidPulseWidth (s : State) (i : Nat) : State :=
  { s.endAttempt .invalidPulseWidth with failbit := BitVec.ofNat 6 i }

/-- `raise ChecksumMismatch()` (00_scope.md R11, 42_frame_decoder.md R160). -/
def State.raiseChecksumMismatch (s : State) : State := s.endAttempt .checksumMismatch

/-- A tick of a wait phase `p` that awaits the level `lvl` (41_pulse_sampler.md R122): the watchdog is tested
first, then the level; `advance` is what the phase does when it sees its level, after `s.now <- n`. -/
def State.waitPhase (s : State) (p : PhaseCode) (lvl : Bool)
    (advance : State → Host.Outcome State Fault Refusal) : Host.Outcome State Fault Refusal :=
  if Config.params.timeoutUs < s.elapsed.toNat then .next (s.advanceNow.raiseTimeout p)
  else if s.sample = lvl then advance s.advanceNow
  else .next s.advanceNow

/-- A tick of a phase of fixed length: it ends at the tick whose `e` reaches `bound` (41_pulse_sampler.md R126, R127). -/
def State.timedPhase (s : State) (bound : Nat) (following : PhaseCode) : State :=
  if bound ≤ s.elapsed.toNat then s.advanceNow.enterPhase following else s.advanceNow

/-- Recording the pulse of bit `i = s.bitidx` (41_pulse_sampler.md R132): `s.pulse[i] <- d`, the next bit index,
and the next phase, DECODE after the 40th bit and BIT_LOW otherwise. -/
def State.capturePulse (s : State) (d : Byte) : Host.Outcome State Fault Refusal :=
  if h : s.bitidx.toNat < 40 then
    .next ({ s with pulse := s.pulse.set s.bitidx.toNat d h, bitidx := s.bitidx + 1 }.enterPhase
      (if s.bitidx.toNat + 1 = Config.params.nbits then Phase.decode else Phase.bitLow))
  else .fault .pulseIndexOutOfRange

/-- What an accepted START clears besides entering START_LOW (40_host_interface.md R101). FAILBIT becomes 0x3F, so DIAG
reads 0x0000003F while BUSY = 1, where the words of 70_reset_and_hazards.md R255 say that it reads 0 (log entry 19). -/
def State.beginAttempt (s : State) (l : LineIdx) : State :=
  { s with
    line := l
    bitidx := 0
    busy := true
    done := false
    outcome := .ok
    cmderr := false
    failphase := 0
    failbit := noFailbit
    csumCalc := 0
    frame := 0
    hum := 0
    temp := 0
    pulse := Vector.replicate 40 0 }.enterPhase Phase.startLow

/-- A step of the Reset agent (70_reset_and_hazards.md R240): every state element to its value of 10_state.md R50.
The configuration, the inputs still to come, the environment's levels and the host's last answer are no
elements of the sampler and stay (log entry 7). -/
def State.resetStep (s : State) : State :=
  { State.reset with
    numLines := s.numLines
    lineIn := s.lineIn
    inputs := s.inputs
    draws := s.draws
    rdata := s.rdata }

end Sys2Proof.Machine
end

