-- ==== Sys2Proof/Machine/FrameDecoder.lean ====
section
/-! DEFINITION. The frame decoder and checksum validator (42_frame_decoder.md): classify, pack, checksum, the values, and the DECODE tick. -/

namespace Sys2Proof.Machine

/-- What a pulse duration says (42_frame_decoder.md R162). -/
inductive PulseClass where
  /-- A 0 bit. -/
  | zero
  /-- A 1 bit. -/
  | one
  /-- Outside both bit zones. -/
  | invalid
  deriving DecidableEq, Repr

/-- `classify(d)` (42_frame_decoder.md R162); each zone includes its lower bound and excludes its upper one. -/
def classify (d : Byte) : PulseClass :=
  if d.toNat < Config.params.tZeroMin then .invalid
  else if d.toNat < Config.params.tZeroEnd then .zero
  else if d.toNat < Config.params.tOneMin then .invalid
  else if d.toNat < Config.params.tOneEnd then .one
  else .invalid

/-- `min(bad)`: the lowest index of a pulse outside both zones, if any (42_frame_decoder.md R160, R167). -/
def firstInvalid (p : PulseFile) : Option Nat := p.toList.findIdx? fun d => classify d == .invalid

/-- `pack(pulse)`: the first pulse is the most significant bit of byte 0 (42_frame_decoder.md R164, 30_encoding.md R87). -/
def pack (p : PulseFile) : Frame := BitVec.ofFnBE fun i => classify p[i] == .one

/-- Byte k of the frame, k from 0 to 4 (30_encoding.md R87). -/
def frameByte (f : Frame) (k : Nat) : Byte := f.extractLsb' (32 - 8 * k) 8

/-- `checksum(f)`: the low 8 bits of the sum of the first four bytes (42_frame_decoder.md R165). -/
def checksum (f : Frame) : Byte := frameByte f 0 + frameByte f 1 + frameByte f 2 + frameByte f 3

/-- `humidity(f)`: the humidity raw16, unchanged (42_frame_decoder.md R170). -/
def humidity (f : Frame) : BitVec 16 := f.extractLsb' 24 16

/-- The temperature raw16 (30_encoding.md R87, R88). -/
def tempRaw (f : Frame) : BitVec 16 := f.extractLsb' 8 16

/-- `temperature(f)`: from sign and magnitude to two's complement (42_frame_decoder.md R171). -/
def temperature (f : Frame) : BitVec 16 :=
  let mag := ((tempRaw f).extractLsb' 0 15).setWidth 16
  if (tempRaw f).getLsbD 15 then 0 - mag else mag

/-- The end of an attempt whose 40 pulses all lie in a bit zone, with the frame `f` (42_frame_decoder.md R160):
the frame and its checksum are kept whatever the comparison gives, the values only when it agrees. -/
def State.acceptFrame (s : State) (f : Frame) : State :=
  let t := { s with frame := f, csumCalc := checksum f }
  if checksum f = frameByte f 4 then
    { t.endAttempt .ok with hum := humidity f, temp := temperature f }
  else t.raiseChecksumMismatch

/-- A tick in DECODE (42_frame_decoder.md R160): classification of all pulses first, then the checksum (R161). -/
def execPhaseDecode (s : State) : Host.Outcome State Fault Refusal :=
  match firstInvalid s.pulse with
  | some i => .next (s.advanceNow.raiseInvalidPulseWidth i)
  | none => .next (s.advanceNow.acceptFrame (pack s.pulse))

end Sys2Proof.Machine
end

