-- ==== Sys2Proof/Machine/Flags.lean ====
section
/-! DEFINITION. The flags and the words that show them: VALID, CTRL, STATUS and DIAG. -/

namespace Sys2Proof.Machine

/-- STATUS.VALID, computed, not stored: `DONE AND (OUTCOME = Ok)` (10_state.md R31, R43). -/
def State.valid (s : State) : Bool := s.done && s.outcome.code == 0

/-- CTRL as it reads: `{16'b0, LINE, 7'b0, 1'b0}` (10_state.md R30, 40_host_interface.md R106). -/
def State.ctrlWord (s : State) : Word := 0#16 ++ s.line ++ 0#7 ++ 0#1

/-- STATUS as it reads (10_state.md R31, 40_host_interface.md R106). -/
def State.statusWord (s : State) : Word :=
  0#10 ++ s.bitidx ++ 0#4 ++ s.phase ++ 0#2 ++ BitVec.ofBool s.valid ++
    BitVec.ofBool s.cmderr ++ s.outcome.code ++ BitVec.ofBool s.done ++ BitVec.ofBool s.busy

/-- DIAG as it reads (10_state.md R32, 40_host_interface.md R106). -/
def State.diagWord (s : State) : Word :=
  0#8 ++ s.csumCalc ++ 0#4 ++ s.failphase ++ 0#2 ++ s.failbit

end Sys2Proof.Machine
end

