-- ==== Sys2Proof/Machine/Operands.lean ====
section
/-! DEFINITION. The operand of a read: the register a word index selects and the value it shows. -/

namespace Sys2Proof.Machine

/-- PULSE_Wk: four pulses, the earliest in the most significant byte (10_state.md R41, 20_memory.md R65). -/
def State.pulseWord (s : State) (k : Nat) (h : k < 10) : Word :=
  s.pulse[4 * k] ++ s.pulse[4 * k + 1] ++ s.pulse[4 * k + 2] ++ s.pulse[4 * k + 3]

/-- The value of the register at word index `a` (40_host_interface.md R106); a reserved index reads 0 (10_state.md R37). -/
def State.readReg (s : State) (a : WordIdx) : Word :=
  if a = 0 then s.ctrlWord
  else if a = 1 then s.statusWord
  else if a = 2 then s.diagWord
  else if a = 3 then s.frame.extractLsb' 8 32
  else if a = 4 then (s.frame.extractLsb' 0 8).setWidth 32
  else if a = 5 then s.hum.setWidth 32
  else if a = 6 then s.temp.signExtend 32
  else if a = 7 then s.now
  else if h : 16 ≤ a.toNat ∧ a.toNat < 26 then s.pulseWord (a.toNat - 16) (by omega)
  else 0

/-- The answer of a host access made while `rst` is asserted (70_reset_and_hazards.md R240): a read returns the
reset value of its register, a write has no effect. `s` is the state after the reset step. -/
def State.accessInReset (s : State) : Option Transaction → State
  | some t => if t.we then s else { s with rdata := s.readReg t.wordIdx }
  | none => s

end Sys2Proof.Machine
end

