-- ==== Sys2Proof/Machine/HostOps.lean ====
section
/-! DEFINITION. The four host bus operations (40_host_interface.md), each one atomic step with no effect on NOW. -/

namespace Sys2Proof.Machine

/-- START (40_host_interface.md R101 accepted, R102 while busy, R103 line out of range). -/
def execStart (line : LineIdx) (s : State) : Host.Outcome State Fault Refusal :=
  if s.busy then .next { s with cmderr := true }
  else if line.toNat < s.numLines then .next (s.beginAttempt line)
  else .next { s with line := line, cmderr := true }

/-- SETLINE (40_host_interface.md R104): LINE is written only while no attempt is in progress. -/
def execSetline (line : LineIdx) (s : State) : Host.Outcome State Fault Refusal :=
  if s.busy then .next s else .next { s with line := line }

/-- WR_IGN (40_host_interface.md R105): no change to any state, whatever the offset and the data. -/
def execWrIgn (_a : WordIdx) (_wdata : Word) (s : State) : Host.Outcome State Fault Refusal := .next s

/-- RD (40_host_interface.md R106): the host gets the register's value; a read changes no state (20_memory.md R67). -/
def execRd (a : WordIdx) (s : State) : Host.Outcome State Fault Refusal :=
  .next { s with rdata := s.readReg a }

end Sys2Proof.Machine
end

