-- ==== Sys2Proof/Machine/PulseSampler.lean ====
section
/-! DEFINITION. One tick in each phase from IDLE to BIT_HIGH, and in a reserved phase (41_pulse_sampler.md). Each meaning is the whole tick of R120: NOW advances and the phase's rule runs. -/

namespace Sys2Proof.Machine

/-- A tick in IDLE (41_pulse_sampler.md R125): only NOW counts; the line is ignored. -/
def execPhaseIdle (s : State) : Host.Outcome State Fault Refusal := .next s.advanceNow

/-- A tick in START_LOW (41_pulse_sampler.md R126): RELEASE when `e >= START_LOW_US`. -/
def execPhaseStartLow (s : State) : Host.Outcome State Fault Refusal :=
  .next (s.timedPhase Config.params.startLowUs Phase.release)

/-- A tick in RELEASE (41_pulse_sampler.md R127): RESP_LOW when `e >= RELEASE_US`. -/
def execPhaseRelease (s : State) : Host.Outcome State Fault Refusal :=
  .next (s.timedPhase Config.params.releaseUs Phase.respLow)

/-- A tick in RESP_LOW (41_pulse_sampler.md R128): awaits 0, then RESP_HIGH. -/
def execPhaseRespLow (s : State) : Host.Outcome State Fault Refusal :=
  s.waitPhase Phase.respLow false fun t => .next (t.enterPhase Phase.respHigh)

/-- A tick in RESP_HIGH (41_pulse_sampler.md R129): awaits 1, then RESP_END. -/
def execPhaseRespHigh (s : State) : Host.Outcome State Fault Refusal :=
  s.waitPhase Phase.respHigh true fun t => .next (t.enterPhase Phase.respEnd)

/-- A tick in RESP_END (41_pulse_sampler.md R130): awaits 0, then BIT_LOW of bit 0. -/
def execPhaseRespEnd (s : State) : Host.Outcome State Fault Refusal :=
  s.waitPhase Phase.respEnd false fun t => .next { t.enterPhase Phase.bitLow with bitidx := 0 }

/-- A tick in BIT_LOW (41_pulse_sampler.md R131): awaits 1, then BIT_HIGH of the same bit. -/
def execPhaseBitLow (s : State) : Host.Outcome State Fault Refusal :=
  s.waitPhase Phase.bitLow true fun t => .next (t.enterPhase Phase.bitHigh)

/-- A tick in BIT_HIGH (41_pulse_sampler.md R132): awaits 0, then records the high-duration `e[7:0]`. -/
def execPhaseBitHigh (s : State) : Host.Outcome State Fault Refusal :=
  s.waitPhase Phase.bitHigh false fun t => t.capturePulse (s.elapsed.extractLsb' 0 8)

/-- A tick in a reserved phase: the codes 9 to 15 are never produced and have no rule (30_encoding.md R84). -/
def execPhaseReserved (code : PhaseCode) (_s : State) : Host.Outcome State Fault Refusal :=
  .refused (.reservedPhase code)

end Sys2Proof.Machine
end

