-- ==== Sys2Proof/Machine/Dispatch.lean ====
section
/-! DEFINITION. One arm per instruction. -/

namespace Sys2Proof.Machine

def exec (i : Instr) (s : State) : Host.Outcome State Fault Refusal :=
  match i with
  | .start line => Sys2Proof.Machine.execStart line s
  | .setline line => Sys2Proof.Machine.execSetline line s
  | .wrIgn a wdata => Sys2Proof.Machine.execWrIgn a wdata s
  | .rd a => Sys2Proof.Machine.execRd a s
  | .phaseIdle => Sys2Proof.Machine.execPhaseIdle s
  | .phaseStartLow => Sys2Proof.Machine.execPhaseStartLow s
  | .phaseRelease => Sys2Proof.Machine.execPhaseRelease s
  | .phaseRespLow => Sys2Proof.Machine.execPhaseRespLow s
  | .phaseRespHigh => Sys2Proof.Machine.execPhaseRespHigh s
  | .phaseRespEnd => Sys2Proof.Machine.execPhaseRespEnd s
  | .phaseBitLow => Sys2Proof.Machine.execPhaseBitLow s
  | .phaseBitHigh => Sys2Proof.Machine.execPhaseBitHigh s
  | .phaseDecode => Sys2Proof.Machine.execPhaseDecode s
  | .phaseReserved code => Sys2Proof.Machine.execPhaseReserved code s

end Sys2Proof.Machine
end

