-- ==== Sys2Proof/Machine/Fetch.lean ====
section
/-! DEFINITION. Which step comes next: the head of the inputs selects a tick, a host access or a reset cycle. -/

namespace Sys2Proof.Machine

/-- What the next step runs. -/
inductive Fetched where
  /-- The instruction, and the state it runs in. -/
  | run (i : Instr) (s : State)
  /-- A reset cycle, and the state after it. -/
  | reset (s : State)
  deriving DecidableEq, Repr

/-- A tick with these line levels: the instruction is the rule of `s.phase` (41_pulse_sampler.md R120). -/
def State.fetchTick (s : State) (levels : LineLevels) : Fetched :=
  .run (decodePhase s.phase) { s with lineIn := levels }

/-- The next step (00_scope.md R8): the first input is used up; where none is listed a tick falls, since ticks
keep coming (R15), with a free draw of the line levels (R12). -/
def State.fetch (s : State) : Fetched :=
  match s.inputs with
  | [] => { s with draws := s.draws + 1 }.fetchTick (Config.freeLineIn s.draws)
  | .tick levels :: rest => { s with inputs := rest }.fetchTick levels
  | .host t :: rest => .run (decodeTransaction t) { s with inputs := rest }
  | .reset access :: rest => .reset ({ s with inputs := rest }.resetStep.accessInReset access)

/-- `s` with an instruction word where the next step finds it: a transaction as the next host access, a phase
code in `s.phase` with a tick as the next input, every line low (log entry 12). -/
def State.withWord (s : State) : InstrWord → State
  | .bus t => { s with inputs := .host t :: s.inputs }
  | .phase c => { s with phase := c, inputs := .tick 0 :: s.inputs }

end Sys2Proof.Machine
end

