-- ==== Sys2Proof/Machine/Step.lean ====
section
/-! DEFINITION. One step of the machine: fetch and run. -/

namespace Sys2Proof.Machine

/-- One atomic step of whichever agent is next (00_scope.md R8). -/
def step (s : State) : Host.Outcome State Fault Refusal :=
  match s.fetch with
  | .run i t => exec i t
  | .reset t => .next t

/-- `s` with the instruction of these bits where `step` fetches its next one; bits that are no word leave `s` as it is. -/
def State.withFetchWord (s : State) (nbits w : Nat) : State :=
  match wordOfBits nbits w with
  | .ok word => s.withWord word
  | .error _ => s

end Sys2Proof.Machine
end

