-- ==== Sys2Proof/Machine/HostProgram.lean ====
section
/-! DEFINITION. The host beside the sampler: the program notation of 30_encoding.md R92 and R93, the host procedures of 43_host_procedures.md written in it, and the two run together. Nothing here is part of the sampler: these rules bind the host (R190). -/

namespace Sys2Proof.Machine

/-- The register names of 20_memory.md R61, and an offset written `[0xNN]` (30_encoding.md R92). -/
inductive Reg where
  | ctrl
  | status
  | diag
  | frameW0
  | frameW1
  | humidity
  | temperature
  | now
  | pulseW (k : Fin 10)
  | offset (addr : BitVec 8)
  deriving DecidableEq, Repr

/-- `offset(reg)`, the byte address of a register (20_memory.md R61). -/
def Reg.addr : Reg → BitVec 8
  | .ctrl => 0x00
  | .status => 0x04
  | .diag => 0x08
  | .frameW0 => 0x0C
  | .frameW1 => 0x10
  | .humidity => 0x14
  | .temperature => 0x18
  | .now => 0x1C
  | .pulseW k => BitVec.ofNat 8 (0x40 + 4 * k.val)
  | .offset a => a

/-- A host variable: a name and a position, so that `res[j]` has one variable for each j. -/
abbrev HostVar := String × Nat

/-- Values of a host program: constants, and expressions over host variables (30_encoding.md R92). R92 does not
say which operators an expression may use: the set here, those that the spec's own programs need, is the model's
choice (log entry 17). -/
inductive HostExpr where
  | const (v : Word)
  /-- `name[index]`; a plain variable has index 0. -/
  | var (name : String) (index : HostExpr)
  | add (x y : HostExpr)
  | sub (x y : HostExpr)
  | mul (x y : HostExpr)
  | shl (x : HostExpr) (n : Nat)
  | shr (x y : HostExpr)
  | and (x y : HostExpr)
  deriving DecidableEq, Repr

/-- Conditions of `IF` (30_encoding.md R92). R92 leaves the form of `<cond>` open: the three comparisons here, with
`<` unsigned, those that the spec's own programs need, are the model's choice (log entry 17). -/
inductive HostCond where
  | eq (x y : HostExpr)
  | ne (x y : HostExpr)
  | lt (x y : HostExpr)
  deriving DecidableEq, Repr

/-- One line of a host program (30_encoding.md R92); `set` and `goto`, which the table of R92 does not list but the
spec's programs use, are the host's own computation (log entry 17). -/
inductive HostLine where
  /-- `WR <reg>, <value>`, the address as an expression. -/
  | wr (addr value : HostExpr)
  /-- `RD <reg> -> <name>`. -/
  | rd (addr : HostExpr) (name : String) (index : HostExpr)
  /-- `WAIT <n>`: no access for n ticks. R92 does not say what `<n>` may be: a constant number of any size, and no
  expression over host variables, is the model's choice (log entry 17). -/
  | wait (n : Nat)
  /-- `<label>:`. -/
  | label (l : String)
  /-- `IF <cond> GOTO <label>`. -/
  | ifGoto (c : HostCond) (l : String)
  | goto (l : String)
  | set (name : String) (index value : HostExpr)
  deriving DecidableEq, Repr

/-- The host agent: where its program stands, its variables (the first entry of a name counts), the variable that
waits for the answer of the read just performed, and the ticks its `WAIT` has left. -/
structure HostAgent where
  pc : Nat
  vars : List (HostVar × Word)
  pending : Option HostVar
  waiting : Nat
  deriving DecidableEq, Repr

/-- The host before its program's first line; a variable never written reads 0 (log entry 16). -/
def HostAgent.initial : HostAgent := { pc := 0, vars := [], pending := none, waiting := 0 }

/-- The value of a host variable. -/
def HostAgent.get (h : HostAgent) (x : HostVar) : Word := (h.vars.lookup x).getD 0

/-- Writing a host variable. -/
def HostAgent.put (h : HostAgent) (x : HostVar) (v : Word) : HostAgent := { h with vars := (x, v) :: h.vars }

/-- The value of an expression, 32-bit and wrapping (70_reset_and_hazards.md R257). -/
def HostAgent.eval (h : HostAgent) : HostExpr → Word
  | .const v => v
  | .var name index => h.get (name, (h.eval index).toNat)
  | .add x y => h.eval x + h.eval y
  | .sub x y => h.eval x - h.eval y
  | .mul x y => h.eval x * h.eval y
  | .shl x n => h.eval x <<< n
  | .shr x y => h.eval x >>> (h.eval y).toNat
  | .and x y => h.eval x &&& h.eval y

/-- Whether a condition holds. -/
def HostAgent.holds (h : HostAgent) : HostCond → Bool
  | .eq x y => h.eval x == h.eval y
  | .ne x y => h.eval x != h.eval y
  | .lt x y => decide ((h.eval x).toNat < (h.eval y).toNat)

/-- The line a label names. R92 does not say what a label that stands nowhere or twice names: past the end of the
program and the first place are the model's choice (log entry 16). -/
def labelLine (prog : List HostLine) (l : String) : Nat := prog.findIdx (· == .label l)

/-- What the host does at one turn of its own. -/
inductive HostAction where
  /-- It performs this transaction. -/
  | access (t : Transaction)
  /-- It computes, with no access (30_encoding.md R92: "take no ticks in the model"). -/
  | compute
  /-- Its program has ended. -/
  | stop
  deriving DecidableEq, Repr

/-- The answer of the read just performed goes to the variable that waits for it. -/
def HostAgent.receive (h : HostAgent) (rdata : Word) : HostAgent :=
  match h.pending with
  | some x => { h.put x rdata with pending := none }
  | none => h

/-- One line of the program (30_encoding.md R92). The register space has addresses 0x00 to 0xFF only (20_memory.md R60)
and the spec is silent on an address expression beyond: that the access keeps its low 8 bits is the model's choice
(log entry 17). -/
def HostAgent.act (prog : List HostLine) (h : HostAgent) : HostAgent × HostAction :=
  match prog[h.pc]? with
  | none => (h, .stop)
  | some (.wr addr value) =>
    ({ h with pc := h.pc + 1 }, .access (Transaction.mk true ((h.eval addr).setWidth 8) (h.eval value)))
  | some (.rd addr name index) =>
    ({ h with pc := h.pc + 1, pending := some (name, (h.eval index).toNat) },
      .access (Transaction.mk false ((h.eval addr).setWidth 8) 0))
  | some (.wait n) => ({ h with pc := h.pc + 1, waiting := n }, .compute)
  | some (.label _) => ({ h with pc := h.pc + 1 }, .compute)
  | some (.ifGoto c l) => ({ h with pc := if h.holds c then labelLine prog l else h.pc + 1 }, .compute)
  | some (.goto l) => ({ h with pc := labelLine prog l }, .compute)
  | some (.set name index value) =>
    ({ h.put (name, (h.eval index).toNat) (h.eval value) with pc := h.pc + 1 }, .compute)

/-- Host and sampler together: whose turn comes next (00_scope.md R8: their steps interleave). -/
inductive Turn where
  /-- The host runs one line, unless it waits. -/
  | host
  /-- A tick with these line levels. -/
  | tick (levels : LineLevels)
  deriving DecidableEq, Repr

/-- One turn of the pair: the host's access is the sampler's next input, and so is the tick. -/
def turn (prog : List HostLine) (h : HostAgent) (s : State) :
    Turn → Host.Outcome (HostAgent × State) Fault Refusal
  | .host =>
    if h.waiting ≠ 0 then .next (h, s)
    else
      match (h.receive s.rdata).act prog with
      | (h', .access t) =>
        match step { s with inputs := .host t :: s.inputs } with
        | .next s' => .next (h', s')
        | .fault r => .fault r
        | .refused r => .refused r
      | (h', .compute) => .next (h', s)
      | (h', .stop) => .next (h', s)
  | .tick levels =>
    match step { s with inputs := .tick levels :: s.inputs } with
    | .next s' => .next ({ h with waiting := h.waiting - 1 }, s')
    | .fault r => .fault r
    | .refused r => .refused r

/-! The pseudo-instructions of 30_encoding.md R93. The names an expansion uses for itself (`t`, `p`, `a`, `b`) are
given a tag by the program that uses it, so that two expansions do not meet (log entry 16). -/

/-- A constant; a number of 2^32 or more is taken modulo 2^32, the model's choice (log entry 17). -/
def cst (n : Nat) : HostExpr := .const (BitVec.ofNat 32 n)
/-- A plain host variable. -/
def hv (name : String) : HostExpr := .var name (cst 0)
/-- Bits `[lo + width - 1 : lo]` of a value. -/
def bits (x : HostExpr) (lo width : Nat) : HostExpr := .and (.shr x (cst lo)) (cst (2 ^ width - 1))
/-- The address of a named register. -/
def regAt (r : Reg) : HostExpr := .const (r.addr.setWidth 32)
/-- `RD <reg> -> <name>` into a plain variable. -/
def rdInto (r : Reg) (name : String) : HostLine := .rd (regAt r) name (cst 0)

/-- `START <L>` is `WR CTRL, (L << 8) + 1`. -/
def pseudoStart (l : HostExpr) : List HostLine := [.wr (regAt .ctrl) (.add (.shl l 8) (cst 1))]
/-- `SELECT <L>` is `WR CTRL, L << 8`. -/
def pseudoSelect (l : HostExpr) : List HostLine := [.wr (regAt .ctrl) (.shl l 8)]
/-- `POLL <reg>, <mask>, <value>`. -/
def pseudoPoll (tag : String) (r : Reg) (mask value : HostExpr) : List HostLine :=
  [.label (tag ++ ".p"), rdInto r (tag ++ ".t"),
   .ifGoto (.ne (.and (hv (tag ++ ".t")) mask) value) (tag ++ ".p")]
/-- `WAITDONE` polls STATUS until BUSY is 0. -/
def pseudoWaitdone (tag : String) : List HostLine := pseudoPoll tag .status (cst 1) (cst 0)
/-- `READ_SENSOR <L> -> <st>`. -/
def pseudoReadSensor (tag : String) (l : HostExpr) (st : String) : List HostLine :=
  pseudoStart l ++ pseudoWaitdone tag ++ [rdInto .status st]
/-- `DELAY_US <n>` with wrap-safe subtraction (70_reset_and_hazards.md R257). -/
def pseudoDelayUs (tag : String) (n : Nat) : List HostLine :=
  [rdInto .now (tag ++ ".a"), .label (tag ++ ".p"), rdInto .now (tag ++ ".b"),
   .ifGoto (.lt (.sub (hv (tag ++ ".b")) (hv (tag ++ ".a"))) (cst n)) (tag ++ ".p")]

/-- The parameters the spec leaves to the host and its platform, each OPEN but `maxAttempts` (default 2), and the
configuration of 43_host_procedures.md R196. Their ranges are `HostParams.Ok`. -/
structure HostParams where
  /-- `SAMPLER_BASE`: the register space's place in the host's address space (20_memory.md R61). -/
  samplerBase : Nat
  /-- `PIN_TO_LINE`: which line a GPIO pin is (43_host_procedures.md R196). -/
  pinToLine : List (Nat × LineIdx)
  /-- `POWERUP_SETTLE_US`: the wait before the first START (70_reset_and_hazards.md R243). -/
  powerupSettleUs : Nat
  /-- `MIN_REREAD_US`: the interval between reads of one sensor after an Ok (43_host_procedures.md R195). -/
  minRereadUs : Nat
  /-- The configured pins, "ordered list of GPIO pin numbers", duplicates permitted (43_host_procedures.md R196). -/
  pins : List Nat
  /-- `maxAttempts` (43_host_procedures.md R196). -/
  maxAttempts : Nat := 2
  deriving DecidableEq, Repr

/-- The ranges of 43_host_procedures.md R196 over a sampler of `numLines` lines: `maxAttempts` is at least 1, every
configured pin is a positive integer, and the map takes each to a line 0 to `NUM_LINES - 1`. R196 gives no upper bound,
so none stands here, though a program holds only 32 bits of a number (log entry 17). -/
abbrev HostParams.Ok (p : HostParams) (numLines : Nat) : Prop :=
  1 ≤ p.maxAttempts ∧
  ∀ pin ∈ p.pins, 1 ≤ pin ∧ (p.pinToLine.lookup pin).any (fun l => decide (l.toNat < numLines)) = true

/-- Where a register lies in the host's own address space (20_memory.md R61). -/
def HostParams.hostAddress (p : HostParams) (r : Reg) : Nat := p.samplerBase + r.addr.toNat

/-- The lines of the configured pins, in their order, duplicates kept (43_host_procedures.md R196, R197). A configured
pin that the map does not list leaves the whole batch without lines, and of two pairs for one pin the first counts:
the spec says neither, both are the model's choice (log entry 18). -/
def HostParams.lines (p : HostParams) : Option (List LineIdx) :=
  p.pins.mapM fun pin => p.pinToLine.lookup pin

/-- The host's part of the boot sequence (70_reset_and_hazards.md R243 step 3). -/
def HostParams.boot (p : HostParams) : List HostLine := [.wait p.powerupSettleUs]

/-- The host's interval after an Ok before it reads the same sensor again (43_host_procedures.md R195). -/
def HostParams.reread (p : HostParams) (tag : String) : List HostLine := pseudoDelayUs tag p.minRereadUs

/-- The backoff after a failed attempt, 2 s (43_host_procedures.md R193). -/
def backoffUs : Nat := 2000000

/-- `READ(L)`, one physical attempt (43_host_procedures.md R191): "h" and "t" hold the measurement. The procedure jumps
to `rejected` and `no_measurement` and places neither label: both after its last line is the model's choice (log entry 16). -/
def readProgram (l : LineIdx) : List HostLine :=
  pseudoStart (.const (l.setWidth 32)) ++ pseudoWaitdone "w" ++
  [rdInto .status "st",
   .ifGoto (.eq (bits (hv "st") 4 1) (cst 1)) "rejected",
   .set "outcome" (cst 0) (bits (hv "st") 2 2),
   .ifGoto (.eq (bits (hv "st") 5 1) (cst 0)) "no_measurement",
   rdInto .humidity "h",
   rdInto .temperature "t",
   .label "rejected",
   .label "no_measurement"]

/-- The Batch Controller for lines `P[0..N-1]` and `maxAttempts = M` (43_host_procedures.md R200), for M of at least
1; `HostParams.batchProgram` checks the configuration it comes from. M and the number of lines stand in the program
as 32-bit constants, so from 2^32 on they count modulo 2^32, the model's choice (log entry 17). -/
def batchProgram (lines : List LineIdx) (maxAttempts : Nat) : List HostLine :=
  (lines.zipIdx.map fun (l, j) => .set "P" (cst j) (.const (l.setWidth 32))) ++
  [.set "j" (cst 0) (cst 0),
   .label "next",
   .ifGoto (.eq (hv "j") (cst lines.length)) "end",
   .set "a" (cst 0) (cst 1),
   .label "try"] ++
  pseudoReadSensor "w" (.var "P" (hv "j")) "st" ++
  [.set "res.outcome" (hv "j") (bits (hv "st") 2 2),
   .ifGoto (.eq (bits (hv "st") 5 1) (cst 1)) "ok",
   .ifGoto (.eq (hv "a") (cst maxAttempts)) "store"] ++
  pseudoDelayUs "d" backoffUs ++
  [.set "a" (cst 0) (.add (hv "a") (cst 1)),
   .goto "try",
   .label "ok",
   .rd (regAt .humidity) "res.hum" (hv "j"),
   .rd (regAt .temperature) "res.temp" (hv "j"),
   .label "store",
   .set "j" (cst 0) (.add (hv "j") (cst 1)),
   .goto "next",
   .label "end"]

/-- The batch program of a configuration on a sampler of `numLines` lines (43_host_procedures.md R196, R200). A
configuration outside the ranges of R196 has no program: the model's choice (log entry 18). -/
def HostParams.batchProgram (p : HostParams) (numLines : Nat) : Option (List HostLine) :=
  if p.Ok numLines then p.lines.map fun ls => Sys2Proof.Machine.batchProgram ls p.maxAttempts else none

/-! The retry policy as a function (43_host_procedures.md R192 to R194, R197). -/

/-- What became of one configured sensor. -/
structure SensorResult where
  /-- The stored outcome: that of the last attempt (R194). -/
  outcome : ReadOutcome
  /-- The attempts made. -/
  attempts : Nat
  /-- The backoff delays inserted (R193). -/
  delays : Nat
  deriving DecidableEq, Repr

/-- Attempts until the first Ok or the last allowed one, with a delay between a failed attempt and the next
(R192, R193): `attempt k` is the outcome of the k-th attempt from 0, and `more` attempts are allowed after it. -/
def retryFrom (attempt : Nat → ReadOutcome) (k : Nat) : (more : Nat) → SensorResult
  | 0 => { outcome := attempt k, attempts := k + 1, delays := k }
  | more + 1 =>
    if attempt k = .ok then { outcome := .ok, attempts := k + 1, delays := k }
    else retryFrom attempt (k + 1) more

/-- The result of one sensor under `maxAttempts`, which is at least 1 (R196). -/
def retry (maxAttempts : Nat) (attempt : Nat → ReadOutcome) : SensorResult := retryFrom attempt 0 (maxAttempts - 1)

/-- The batch: one result per configured sensor, keyed by position (R197). -/
def batch (maxAttempts : Nat) (sensors : List (Nat → ReadOutcome)) : List SensorResult :=
  sensors.map (retry maxAttempts)

end Sys2Proof.Machine
end

