-- ==== Sys2Proof/Safety.lean ====
section
/-! DEFINITION. What claims are stated in: the invariant of the reachable states, the results of an attempt by outcome, the bounds of an attempt, and views of an outcome. -/

namespace Sys2Proof.Machine

/-- The result registers of an attempt that has reported nothing: what START and reset leave
(40_host_interface.md R101, 70_reset_and_hazards.md R255). -/
structure State.Cleared (s : State) : Prop where
  outcome : s.outcome = .ok
  failphase : s.failphase = 0
  failbit : s.failbit = noFailbit
  csumCalc : s.csumCalc = 0
  frame : s.frame = 0
  hum : s.hum = 0
  temp : s.temp = 0

/-- The result registers by outcome, the table of 42_frame_decoder.md R168. -/
def State.Reported (s : State) : Prop :=
  match s.outcome with
  | .ok =>
    firstInvalid s.pulse = none ∧ s.frame = pack s.pulse ∧ s.csumCalc = checksum s.frame ∧
    checksum s.frame = frameByte s.frame 4 ∧ s.hum = humidity s.frame ∧ s.temp = temperature s.frame ∧
    s.failbit = noFailbit ∧ s.failphase = 0 ∧ s.bitidx = 40
  | .checksumMismatch =>
    firstInvalid s.pulse = none ∧ s.frame = pack s.pulse ∧ s.csumCalc = checksum s.frame ∧
    checksum s.frame ≠ frameByte s.frame 4 ∧ s.hum = 0 ∧ s.temp = 0 ∧
    s.failbit = noFailbit ∧ s.failphase = 0 ∧ s.bitidx = 40
  | .invalidPulseWidth =>
    firstInvalid s.pulse = some s.failbit.toNat ∧ s.failbit.toNat < 40 ∧ s.frame = 0 ∧ s.csumCalc = 0 ∧
    s.hum = 0 ∧ s.temp = 0 ∧ s.failphase = 0 ∧ s.bitidx = 40
  | .timeout =>
    s.frame = 0 ∧ s.csumCalc = 0 ∧ s.hum = 0 ∧ s.temp = 0 ∧ s.failbit = noFailbit ∧
    3 ≤ s.failphase.toNat ∧ s.failphase.toNat ≤ 7 ∧ s.bitidx.toNat < 40

/-- The time since the current phase was entered, as the state holds it between ticks (10_state.md R28). -/
def State.sinceEntry (s : State) : Nat := (s.now - s.t0).toNat

/-- How far into its phase a state can stand between ticks (41_pulse_sampler.md R135). -/
def State.InTime (s : State) : Prop :=
  (s.phase = Phase.startLow → s.sinceEntry < Config.params.startLowUs) ∧
  (s.phase = Phase.release → s.sinceEntry < Config.params.releaseUs) ∧
  (3 ≤ s.phase.toNat ∧ s.phase.toNat ≤ 7 → s.sinceEntry ≤ Config.params.timeoutUs)

/-- The bit index that goes with a phase (10_state.md R31, 41_pulse_sampler.md R130 to R132). -/
def State.IndexOfPhase (s : State) : Prop :=
  s.bitidx.toNat ≤ 40 ∧
  (1 ≤ s.phase.toNat ∧ s.phase.toNat ≤ 5 → s.bitidx = 0) ∧
  (s.phase = Phase.bitLow ∨ s.phase = Phase.bitHigh → s.bitidx.toNat < 40) ∧
  (s.phase = Phase.decode → s.bitidx = 40)

/-- The pulse file: pulses below the bit index were captured and lie in 1 to TIMEOUT_US, the others are 0
(10_state.md R40, 30_encoding.md R89). -/
def State.PulsesCaptured (s : State) : Prop :=
  ∀ (i : Nat) (h : i < 40),
    (i < s.bitidx.toNat → 1 ≤ s.pulse[i].toNat ∧ s.pulse[i].toNat ≤ Config.params.timeoutUs) ∧
    (s.bitidx.toNat ≤ i → s.pulse[i] = 0)

/-- The invariant: what holds at reset and is kept by every step. -/
structure State.Inv (s : State) : Prop where
  /-- NUM_LINES is in its range (00_scope.md R7). -/
  numLines : Config.NumLinesOk s.numLines
  /-- "`s.phase` holds one of the codes 0 to 8" (10_state.md R22). -/
  phase : s.phase.toNat ≤ 8
  /-- BUSY is 1 exactly while an attempt is in progress (10_state.md R31). -/
  busy : s.busy = true ↔ s.phase ≠ Phase.idle
  /-- An attempt runs on a legal line (40_host_interface.md R103). -/
  line : s.busy = true → s.line.toNat < s.numLines
  inTime : s.InTime
  index : s.IndexOfPhase
  pulses : s.PulsesCaptured
  /-- BUSY and DONE are never both 1 (10_state.md R43). -/
  notBoth : s.busy = true → s.done = false
  /-- Before an attempt has reported, the results read as START and reset leave them (70_reset_and_hazards.md R255). -/
  cleared : s.done = false → s.Cleared
  /-- A state that has reported nothing and runs nothing has captured nothing (70_reset_and_hazards.md R242). -/
  idleIndex : s.busy = false → s.done = false → s.bitidx = 0
  /-- Once an attempt has ended the results are those of its outcome (42_frame_decoder.md R168). -/
  reported : s.done = true → s.Reported

/-- All the inputs still to come are ticks. -/
abbrev State.OnlyTicks (s : State) : Prop := ∀ i ∈ s.inputs, ∃ levels, i = Input.tick levels

/-- The tick of 00_scope.md R14 at which an attempt ends: BUSY goes from 1 to 0 with a report. -/
def EndsAttempt (s t : State) : Prop := s.busy = true ∧ t.busy = false ∧ t.done = true

/-- The bound of 00_scope.md R15 on the ticks of an attempt, 10302 with the values of R6. -/
def maxAttemptTicks : Nat :=
  Config.params.startLowUs + Config.params.releaseUs + 3 * Config.params.timeoutUs +
    Config.params.nbits * (2 * Config.params.timeoutUs) + 1

/-- The least ticks of an attempt (70_reset_and_hazards.md R253): every wait advances at its first tick. -/
def minAttemptTicks : Nat :=
  Config.params.startLowUs + Config.params.releaseUs + 3 + 2 * Config.params.nbits + 1

/-- The result registers and the pulse file, what 00_scope.md R14 calls the observation of an ended attempt, less STATUS.CMDERR. -/
def State.SameResults (s t : State) : Prop :=
  t.busy = s.busy ∧ t.done = s.done ∧ t.outcome = s.outcome ∧ t.phase = s.phase ∧ t.bitidx = s.bitidx ∧
  t.failphase = s.failphase ∧ t.failbit = s.failbit ∧ t.csumCalc = s.csumCalc ∧ t.frame = s.frame ∧
  t.hum = s.hum ∧ t.temp = s.temp ∧ t.pulse = s.pulse

/-- An outcome with its next state changed by `f`. -/
def mapNext (f : State → State) : Host.Outcome State Fault Refusal → Host.Outcome State Fault Refusal
  | .next s => .next (f s)
  | .fault r => .fault r
  | .refused r => .refused r

/-- The same moment with NOW counted from elsewhere: NOW and the phase's entry stamp both moved by `k`. -/
def State.shiftTime (s : State) (k : Word) : State := { s with now := s.now + k, t0 := s.t0 + k }

end Sys2Proof.Machine
end

