-- ==== Sys2Proof/Certificates/Slice0/Obligations.lean ====
section
/-! DEFINITION. The statements for the provers, from the numbered rules of spec/, file by file. -/

open Sys2Proof Sys2Proof.Machine

/-! ### Host operations (40_host_interface.md) -/

/-- 40_host_interface.md R101: an accepted START enters START_LOW on its line, stamps the entry with the
current NOW, clears every result and every pulse, and drives the line low from this step on. -/
def Obligations.StartAcceptedBeginsAttempt : Prop :=
  ∀ (l : LineIdx) (s : State), s.busy = false → l.toNat < s.numLines →
    ∃ t, Sys2Proof.Machine.exec (.start l) s = .next t ∧
      t = { s with
        line := l, phase := 1, t0 := s.now, bitidx := 0, busy := true, done := false, outcome := .ok,
        cmderr := false, failphase := 0, failbit := 0x3F, csumCalc := 0, frame := 0, hum := 0, temp := 0,
        pulse := Vector.replicate 40 0 } ∧
      t.valid = false ∧ t.lineOe l = true ∧ t.lineOut l = false

/-- 40_host_interface.md R102: a START while busy, on any line, sets CMDERR and changes nothing else. -/
def Obligations.StartWhileBusyOnlySetsCmderr : Prop :=
  ∀ (l : LineIdx) (s : State), s.busy = true →
    Sys2Proof.Machine.exec (.start l) s = .next { s with cmderr := true }

/-- 40_host_interface.md R103: a START with a line out of range stores LINE, sets CMDERR, changes nothing else,
and from IDLE drives no line. -/
def Obligations.StartOutOfRangeStoresLine : Prop :=
  ∀ (l : LineIdx) (s : State), s.busy = false → s.numLines ≤ l.toNat →
    Sys2Proof.Machine.exec (.start l) s = .next { s with line := l, cmderr := true } ∧
    (s.phase = 0 → ∀ k, State.lineOe { s with line := l, cmderr := true } k = false)

/-- 40_host_interface.md R104: SETLINE stores LINE, in range or not, when no attempt runs and nothing otherwise;
no flag is written, and from IDLE no pad changes. -/
def Obligations.SetlineWritesLineWhenIdle : Prop :=
  ∀ (l : LineIdx) (s : State),
    (s.busy = false → Sys2Proof.Machine.exec (.setline l) s = .next { s with line := l }) ∧
    (s.busy = true → Sys2Proof.Machine.exec (.setline l) s = .next s) ∧
    (s.phase = 0 → ∀ k, State.lineOe { s with line := l } k = s.lineOe k ∧
      State.lineOut { s with line := l } k = s.lineOut k)

/-- 40_host_interface.md R105: a write to any offset but CTRL changes no state. -/
def Obligations.IgnoredWriteChangesNothing : Prop :=
  ∀ (a : WordIdx) (w : Word) (s : State), Sys2Proof.Machine.exec (.wrIgn a w) s = .next s

/-- 40_host_interface.md R106 and 20_memory.md R67: a read answers the value of its register, as the table gives
it, reserved indices 0, and changes no state but the host's answer. -/
def Obligations.ReadAnswersRegister : Prop :=
  ∀ (a : WordIdx) (s : State), ∃ v : Word, Sys2Proof.Machine.exec (.rd a) s = .next { s with rdata := v } ∧
    (a = 0 → v = 0#16 ++ s.line ++ 0#7 ++ 0#1) ∧
    (a = 1 → v = 0#10 ++ s.bitidx ++ 0#4 ++ s.phase ++ 0#2 ++ BitVec.ofBool (s.done && s.outcome == .ok) ++
      BitVec.ofBool s.cmderr ++ s.outcome.code ++ BitVec.ofBool s.done ++ BitVec.ofBool s.busy) ∧
    (a = 2 → v = 0#8 ++ s.csumCalc ++ 0#4 ++ s.failphase ++ 0#2 ++ s.failbit) ∧
    (a = 3 → v = s.frame.extractLsb' 8 32) ∧
    (a = 4 → v = 0#24 ++ s.frame.extractLsb' 0 8) ∧
    (a = 5 → v = 0#16 ++ s.hum) ∧
    (a = 6 → v = s.temp.signExtend 32) ∧
    (a = 7 → v = s.now) ∧
    (8 ≤ a.toNat ∧ a.toNat ≤ 15 → v = 0) ∧
    (∀ (k : Nat) (h : k < 10), a.toNat = 16 + k →
      v = s.pulse[4 * k] ++ s.pulse[4 * k + 1] ++ s.pulse[4 * k + 2] ++ s.pulse[4 * k + 3]) ∧
    (26 ≤ a.toNat → v = 0)

/-- 10_state.md R30, R31, R32: each field of CTRL, STATUS and DIAG reads at its own bits, and every reserved bit reads 0. -/
def Obligations.ControlFieldsReadAtTheirBits : Prop :=
  ∀ (s : State), ∃ c st d : Word,
    Sys2Proof.Machine.exec (.rd 0) s = .next { s with rdata := c } ∧
    Sys2Proof.Machine.exec (.rd 1) s = .next { s with rdata := st } ∧
    Sys2Proof.Machine.exec (.rd 2) s = .next { s with rdata := d } ∧
    c.extractLsb' 8 8 = s.line ∧ c.extractLsb' 0 8 = 0 ∧ c.extractLsb' 16 16 = 0 ∧
    st.getLsbD 0 = s.busy ∧ st.getLsbD 1 = s.done ∧ st.extractLsb' 2 2 = s.outcome.code ∧
    st.getLsbD 4 = s.cmderr ∧ st.getLsbD 5 = (s.done && s.outcome == .ok) ∧ st.extractLsb' 6 2 = 0 ∧
    st.extractLsb' 8 4 = s.phase ∧ st.extractLsb' 12 4 = 0 ∧ st.extractLsb' 16 6 = s.bitidx ∧
    st.extractLsb' 22 10 = 0 ∧
    d.extractLsb' 0 6 = s.failbit ∧ d.extractLsb' 6 2 = 0 ∧ d.extractLsb' 8 4 = s.failphase ∧
    d.extractLsb' 12 4 = 0 ∧ d.extractLsb' 16 8 = s.csumCalc ∧ d.extractLsb' 24 8 = 0

/-- 10_state.md R35, R36: HUMIDITY reads as the unsigned tenths, TEMPERATURE as the signed tenths. -/
def Obligations.ValueRegistersReadAsNumbers : Prop :=
  ∀ (s : State), ∃ h t : Word,
    Sys2Proof.Machine.exec (.rd 5) s = .next { s with rdata := h } ∧ h.toNat = s.hum.toNat ∧
    Sys2Proof.Machine.exec (.rd 6) s = .next { s with rdata := t } ∧ t.toInt = s.temp.toInt

/-- 20_memory.md R67, 40_host_interface.md R102, 60_exceptions.md R223: every host operation goes on, and while an
attempt runs it leaves everything but CMDERR and the host's answer as it is. -/
def Obligations.HostNeverDisturbsAttempt : Prop :=
  ∀ (i : Instr) (s : State), i.isBus = true → s.busy = true →
    ∃ e v, Sys2Proof.Machine.exec i s = .next { s with cmderr := e, rdata := v }

/-- The frame of the four host operations (40_host_interface.md R101 to R106, 70_reset_and_hazards.md R262): NOW and
the pads' levels stay, only RD writes the host's answer, only START writes anything but LINE and that answer. -/
def Obligations.HostOperationFrame : Prop :=
  ∀ (i : Instr) (s t : State), i.isBus = true → Sys2Proof.Machine.exec i s = .next t →
    t.now = s.now ∧ t.numLines = s.numLines ∧ t.lineIn = s.lineIn ∧ t.inputs = s.inputs ∧ t.draws = s.draws ∧
    ((∀ a, i ≠ .rd a) → t.rdata = s.rdata) ∧
    ((∀ l, i ≠ .start l) → t = { s with line := t.line, rdata := t.rdata }) ∧
    ((∀ l, i ≠ .start l) → (∀ l, i ≠ .setline l) → t = { s with rdata := t.rdata })

/-! ### Encodings (30_encoding.md) -/

/-- 30_encoding.md R81, R82, R84: reading the word of any well-formed instruction gives the instruction back, with
every operand at every value. -/
def Obligations.DecodeOfEncodeIsIdentity : Prop :=
  ∀ i : Instr, i.wf = true → decodeWord (encode i) = i

/-- 30_encoding.md R81: the rows by mask and match, in their order; every transaction selects exactly one. -/
def Obligations.TransactionsSelectByMaskAndMatch : Prop :=
  ∀ t : Transaction,
    (t &&& 0x1FC00000001 = 0x10000000001 → ∃ l, decodeTransaction t = .start l) ∧
    (t &&& 0x1FC00000001 = 0x10000000000 → ∃ l, decodeTransaction t = .setline l) ∧
    (t &&& 0x10000000000 = 0x10000000000 → t &&& 0x1FC00000001 ≠ 0x10000000001 →
      t &&& 0x1FC00000001 ≠ 0x10000000000 → ∃ a w, a ≠ 0 ∧ decodeTransaction t = .wrIgn a w) ∧
    (t &&& 0x10000000000 = 0 → ∃ a, decodeTransaction t = .rd a) ∧
    (decodeTransaction t).isBus = true ∧ (decodeTransaction t).wf = true

/-- 30_encoding.md R80, R82, R83, 20_memory.md R62: the operand bits of a transaction: LINE is T[15:8] of a CTRL write,
the word index of a read is T[39:34]. The clause on WR_IGN is the model's: it keeps T[39:34] and the write data
T[31:0] of R80 as operands, which R105 does not give it (log entry 13). -/
def Obligations.OperandsComeFromTheirBits : Prop :=
  ∀ t : Transaction,
    (∀ l, decodeTransaction t = .start l → l = t.extractLsb' 8 8) ∧
    (∀ l, decodeTransaction t = .setline l → l = t.extractLsb' 8 8) ∧
    (∀ a w, decodeTransaction t = .wrIgn a w → a = t.extractLsb' 34 6 ∧ w = t.extractLsb' 0 32) ∧
    (∀ a, decodeTransaction t = .rd a → a = t.extractLsb' 34 6)

/-- 20_memory.md R62, 30_encoding.md R82, R91: `addr[1:0]`, the write data of a read and the reserved bits of a CTRL
write are ignored: transactions that agree elsewhere select the same operation with the same operands. -/
def Obligations.IgnoredBitsSelectNothing : Prop :=
  ∀ t u : Transaction, t.getLsbD 40 = u.getLsbD 40 → t.extractLsb' 34 6 = u.extractLsb' 34 6 →
    (t.getLsbD 40 = false → decodeTransaction t = decodeTransaction u) ∧
    (t.extractLsb' 34 6 = 0 → t.getLsbD 0 = u.getLsbD 0 → t.extractLsb' 8 8 = u.extractLsb' 8 8 →
      decodeTransaction t = decodeTransaction u) ∧
    (t.extractLsb' 0 32 = u.extractLsb' 0 32 → decodeTransaction t = decodeTransaction u)

/-- 30_encoding.md R84: the phase each code names; 9 to 15 are reserved. -/
def Obligations.PhaseCodesNameTheirPhases : Prop :=
  decodePhase 0 = .phaseIdle ∧ decodePhase 1 = .phaseStartLow ∧ decodePhase 2 = .phaseRelease ∧
  decodePhase 3 = .phaseRespLow ∧ decodePhase 4 = .phaseRespHigh ∧ decodePhase 5 = .phaseRespEnd ∧
  decodePhase 6 = .phaseBitLow ∧ decodePhase 7 = .phaseBitHigh ∧ decodePhase 8 = .phaseDecode ∧
  ∀ c : PhaseCode, 9 ≤ c.toNat → decodePhase c = .phaseReserved c

/-- 30_encoding.md R81, R84, R93 (worked encodings) and 95_test_vectors.md V-HOST-5: words written out from the
encodings. In the last two clauses, that 8 bits are read as a phase code and 48 as a transaction is the model's choice
(log entry 1). -/
def Obligations.SampleWordsDecode : Prop :=
  decodeTransaction 0x10000000001 = .start 0 ∧ decodeTransaction 0x10000000301 = .start 3 ∧
  decodeTransaction 0x10300000001 = .start 0 ∧ decodeTransaction 0x1000000FF01 = .start 0xFF ∧
  decodeTransaction 0x100FFFF00FE = .setline 0 ∧ decodeTransaction 0x10400000001 = .wrIgn 1 1 ∧
  decodeTransaction 0x00400000000 = .rd 1 ∧ decodeTransaction 0x06400000000 = .rd 25 ∧
  decodeTableWord 8 6 = some .phaseBitLow ∧ decodeTableWord 48 0x1FCFFFFFFFF = some (.wrIgn 63 0xFFFFFFFF)

/-! ### The step (00_scope.md R8, 41_pulse_sampler.md R120) -/

/-- 00_scope.md R8, 41_pulse_sampler.md R120: a step runs the decoded instruction: at a listed tick the rule of
`s.phase` with the listed levels on the pads; at a host access the operation its transaction selects; where no
input is listed, a tick with a free draw of the levels. The listing is the model's (log entries 2, 3). -/
def Obligations.StepRunsDecodedInstruction : Prop :=
  ∀ s : State,
    (∀ levels rest, s.inputs = .tick levels :: rest →
      Sys2Proof.Machine.step s =
        Sys2Proof.Machine.exec (decodePhase s.phase) { s with inputs := rest, lineIn := levels }) ∧
    (∀ t rest, s.inputs = .host t :: rest →
      Sys2Proof.Machine.step s = Sys2Proof.Machine.exec (decodeTransaction t) { s with inputs := rest }) ∧
    (s.inputs = [] → ∃ levels, Sys2Proof.Machine.step s =
      Sys2Proof.Machine.exec (decodePhase s.phase) { s with lineIn := levels, draws := s.draws + 1 })

/-- The word placed by State.withFetchWord is the one the next step runs (log entry 12), in either format. -/
def Obligations.PlacedWordIsRunNext : Prop :=
  ∀ (s : State) (nbits w : Nat) (i : Instr), decodeTableWord nbits w = some i →
    ∃ c levels, Sys2Proof.Machine.step (s.withFetchWord nbits w) =
      Sys2Proof.Machine.exec i { s with phase := c, lineIn := levels } ∧
      (i.isBus = true → c = s.phase ∧ levels = s.lineIn) ∧ (i.isBus = false → c.toNat = w)

/-! ### The pulse sampler (41_pulse_sampler.md) -/

/-- 41_pulse_sampler.md R125: a tick in IDLE advances NOW, modulo 2^32, and changes nothing else, whatever the line does;
in IDLE every line is released. -/
def Obligations.IdleTickOnlyCountsNow : Prop :=
  ∀ s : State, Sys2Proof.Machine.exec .phaseIdle s = .next { s with now := s.now + 1 } ∧
    (s.phase = 0 → ∀ l, s.lineOe l = false)

/-- 41_pulse_sampler.md R126: START_LOW goes to RELEASE at the tick that brings `e` to START_LOW_US = 2000, and the line is ignored. -/
def Obligations.StartLowTick : Prop :=
  ∀ s : State,
    (2000 ≤ (s.now + 1 - s.t0).toNat → Sys2Proof.Machine.exec .phaseStartLow s =
      .next { s with now := s.now + 1, phase := 2, t0 := s.now + 1 }) ∧
    ((s.now + 1 - s.t0).toNat < 2000 → Sys2Proof.Machine.exec .phaseStartLow s = .next { s with now := s.now + 1 })

/-- 41_pulse_sampler.md R127: RELEASE goes to RESP_LOW at the tick that brings `e` to RELEASE_US = 1, and the line is ignored. -/
def Obligations.ReleaseTick : Prop :=
  ∀ s : State,
    (1 ≤ (s.now + 1 - s.t0).toNat → Sys2Proof.Machine.exec .phaseRelease s =
      .next { s with now := s.now + 1, phase := 3, t0 := s.now + 1 }) ∧
    ((s.now + 1 - s.t0).toNat < 1 → Sys2Proof.Machine.exec .phaseRelease s = .next { s with now := s.now + 1 })

/-- 41_pulse_sampler.md R128: RESP_LOW times out when `e > 100`, else goes to RESP_HIGH when the selected line is low, else goes on. -/
def Obligations.RespLowTick : Prop :=
  ∀ s : State,
    (100 < (s.now + 1 - s.t0).toNat → Sys2Proof.Machine.exec .phaseRespLow s =
      .next { s with now := s.now + 1, phase := 0, busy := false, done := true, outcome := .timeout, failphase := 3 }) ∧
    ((s.now + 1 - s.t0).toNat ≤ 100 → s.lineIn.getLsbD s.line.toNat = false →
      Sys2Proof.Machine.exec .phaseRespLow s = .next { s with now := s.now + 1, phase := 4, t0 := s.now + 1 }) ∧
    ((s.now + 1 - s.t0).toNat ≤ 100 → s.lineIn.getLsbD s.line.toNat = true →
      Sys2Proof.Machine.exec .phaseRespLow s = .next { s with now := s.now + 1 })

/-- 41_pulse_sampler.md R129: RESP_HIGH times out when `e > 100`, else goes to RESP_END when the selected line is high, else goes on. -/
def Obligations.RespHighTick : Prop :=
  ∀ s : State,
    (100 < (s.now + 1 - s.t0).toNat → Sys2Proof.Machine.exec .phaseRespHigh s =
      .next { s with now := s.now + 1, phase := 0, busy := false, done := true, outcome := .timeout, failphase := 4 }) ∧
    ((s.now + 1 - s.t0).toNat ≤ 100 → s.lineIn.getLsbD s.line.toNat = true →
      Sys2Proof.Machine.exec .phaseRespHigh s = .next { s with now := s.now + 1, phase := 5, t0 := s.now + 1 }) ∧
    ((s.now + 1 - s.t0).toNat ≤ 100 → s.lineIn.getLsbD s.line.toNat = false →
      Sys2Proof.Machine.exec .phaseRespHigh s = .next { s with now := s.now + 1 })

/-- 41_pulse_sampler.md R130: RESP_END times out when `e > 100`, else goes to BIT_LOW of bit 0 when the selected line is low, else goes on. -/
def Obligations.RespEndTick : Prop :=
  ∀ s : State,
    (100 < (s.now + 1 - s.t0).toNat → Sys2Proof.Machine.exec .phaseRespEnd s =
      .next { s with now := s.now + 1, phase := 0, busy := false, done := true, outcome := .timeout, failphase := 5 }) ∧
    ((s.now + 1 - s.t0).toNat ≤ 100 → s.lineIn.getLsbD s.line.toNat = false →
      Sys2Proof.Machine.exec .phaseRespEnd s =
        .next { s with now := s.now + 1, phase := 6, t0 := s.now + 1, bitidx := 0 }) ∧
    ((s.now + 1 - s.t0).toNat ≤ 100 → s.lineIn.getLsbD s.line.toNat = true →
      Sys2Proof.Machine.exec .phaseRespEnd s = .next { s with now := s.now + 1 })

/-- 41_pulse_sampler.md R131: BIT_LOW times out when `e > 100`, else goes to BIT_HIGH when the selected line is high, else goes on. -/
def Obligations.BitLowTick : Prop :=
  ∀ s : State,
    (100 < (s.now + 1 - s.t0).toNat → Sys2Proof.Machine.exec .phaseBitLow s =
      .next { s with now := s.now + 1, phase := 0, busy := false, done := true, outcome := .timeout, failphase := 6 }) ∧
    ((s.now + 1 - s.t0).toNat ≤ 100 → s.lineIn.getLsbD s.line.toNat = true →
      Sys2Proof.Machine.exec .phaseBitLow s = .next { s with now := s.now + 1, phase := 7, t0 := s.now + 1 }) ∧
    ((s.now + 1 - s.t0).toNat ≤ 100 → s.lineIn.getLsbD s.line.toNat = false →
      Sys2Proof.Machine.exec .phaseBitLow s = .next { s with now := s.now + 1 })

/-- 41_pulse_sampler.md R132: BIT_HIGH times out when `e > 100`, else records the high-duration when the selected
line is low, for every bit index 0 to 39, going to BIT_LOW of the next bit or, after bit 39, to DECODE, else goes on. -/
def Obligations.BitHighTick : Prop :=
  ∀ s : State,
    (100 < (s.now + 1 - s.t0).toNat → Sys2Proof.Machine.exec .phaseBitHigh s =
      .next { s with now := s.now + 1, phase := 0, busy := false, done := true, outcome := .timeout, failphase := 7 }) ∧
    ((s.now + 1 - s.t0).toNat ≤ 100 → s.lineIn.getLsbD s.line.toNat = false → ∀ h : s.bitidx.toNat < 40,
      Sys2Proof.Machine.exec .phaseBitHigh s = .next { s with
        now := s.now + 1, t0 := s.now + 1,
        pulse := s.pulse.set s.bitidx.toNat (BitVec.ofNat 8 (s.now + 1 - s.t0).toNat) h,
        bitidx := BitVec.ofNat 6 (s.bitidx.toNat + 1),
        phase := if s.bitidx.toNat = 39 then 8 else 6 }) ∧
    ((s.now + 1 - s.t0).toNat ≤ 100 → s.lineIn.getLsbD s.line.toNat = true →
      Sys2Proof.Machine.exec .phaseBitHigh s = .next { s with now := s.now + 1 })

/-- The capture has a place for bit indices 0 to 39 only (41_pulse_sampler.md R132, 10_state.md R40); at any other, which
30_encoding.md R86 says never occurs there, the model stops with a fault of its own (log entry 9). -/
def Obligations.CaptureOutsidePulseFileFaults : Prop :=
  ∀ s : State, (s.now + 1 - s.t0).toNat ≤ 100 → s.lineIn.getLsbD s.line.toNat = false → 40 ≤ s.bitidx.toNat →
    Sys2Proof.Machine.exec .phaseBitHigh s = .fault .pulseIndexOutOfRange

/-- A reserved phase code has no rule (30_encoding.md R84: "never produced"): the model refuses it by name (log entry 8). -/
def Obligations.ReservedPhaseIsRefused : Prop :=
  ∀ (c : PhaseCode) (s : State), Sys2Proof.Machine.exec (.phaseReserved c) s = .refused (.reservedPhase c)

/-- 41_pulse_sampler.md R122, R124: in every wait phase, 3 to 7, a tick with `e > TIMEOUT_US` ends the attempt with
Timeout whatever the line level, records the phase, and leaves the bit index, the pulses, the other results and
`t0` as they are; every line is released. -/
def Obligations.WatchdogEndsAttemptFirst : Prop :=
  ∀ (s : State) (p : PhaseCode), 3 ≤ p.toNat → p.toNat ≤ 7 → 100 < (s.now + 1 - s.t0).toNat →
    ∃ t, Sys2Proof.Machine.exec (decodePhase p) s = .next t ∧
      t = { s with now := s.now + 1, phase := 0, busy := false, done := true, outcome := .timeout, failphase := p } ∧
      ∀ l, t.lineOe l = false

/-- 41_pulse_sampler.md R120, 10_state.md R27: every tick that goes on adds 1 to NOW modulo 2^32, whatever the phase. -/
def Obligations.EveryTickAddsOneToNow : Prop :=
  ∀ (i : Instr) (s t : State), i.isBus = false → Sys2Proof.Machine.exec i s = .next t →
    t.now.toNat = (s.now.toNat + 1) % 2 ^ 32

/-- The frame of the ticks: no tick writes LINE, CMDERR, the configuration or the host's answer; only BIT_HIGH writes
a pulse, and only the one at the bit index; only DECODE writes the frame, the checksum, FAILBIT and the values; only a
wait phase writes FAILPHASE (10_state.md R43, 41_pulse_sampler.md R120 to R132, 42_frame_decoder.md R160). -/
def Obligations.TickFrame : Prop :=
  ∀ (i : Instr) (s t : State), i.isBus = false → Sys2Proof.Machine.exec i s = .next t →
    t.line = s.line ∧ t.cmderr = s.cmderr ∧ t.numLines = s.numLines ∧ t.lineIn = s.lineIn ∧
    t.inputs = s.inputs ∧ t.draws = s.draws ∧ t.rdata = s.rdata ∧
    (i ≠ .phaseBitHigh → t.pulse = s.pulse) ∧
    (∀ (k : Nat) (h : k < 40), k ≠ s.bitidx.toNat → t.pulse[k] = s.pulse[k]) ∧
    (i ≠ .phaseBitHigh → i ≠ .phaseRespEnd → t.bitidx = s.bitidx) ∧
    (i ≠ .phaseDecode → t.frame = s.frame ∧ t.csumCalc = s.csumCalc ∧ t.failbit = s.failbit ∧
      t.hum = s.hum ∧ t.temp = s.temp) ∧
    (i = .phaseDecode ∨ i = .phaseIdle ∨ i = .phaseStartLow ∨ i = .phaseRelease → t.failphase = s.failphase) ∧
    (t.busy = s.busy ∧ t.done = s.done ∧ t.outcome = s.outcome ∨
      t.busy = false ∧ t.done = true ∧ t.phase = 0 ∧ t.t0 = s.t0)

/-- 10_state.md R46: the sampler reads no line but the selected one: ticks whose levels agree on it do the same. -/
def Obligations.OnlySelectedLineIsRead : Prop :=
  ∀ (i : Instr) (s : State) (levels : LineLevels),
    levels.getLsbD s.line.toNat = s.lineIn.getLsbD s.line.toNat →
    Sys2Proof.Machine.exec i { s with lineIn := levels } =
      mapNext (fun t => { t with lineIn := levels }) (Sys2Proof.Machine.exec i s)

/-- 93_implementation_defined.md I5 (41_pulse_sampler.md R125 to R127, 42_frame_decoder.md R160): outside the wait
phases the line's level has no effect, and no host operation reads it. -/
def Obligations.LineIgnoredOutsideWaitPhases : Prop :=
  ∀ (i : Instr) (s : State) (levels : LineLevels),
    i.isBus = true ∨ i = .phaseIdle ∨ i = .phaseStartLow ∨ i = .phaseRelease ∨ i = .phaseDecode →
    Sys2Proof.Machine.exec i { s with lineIn := levels } =
      mapNext (fun t => { t with lineIn := levels }) (Sys2Proof.Machine.exec i s)

/-- 41_pulse_sampler.md R136: NOW enters every rule through `e` alone, so moving NOW and the phase's entry stamp by
the same amount, across a wrap or not, changes nothing else; only a read of NOW shows it. -/
def Obligations.WrapOfNowDisturbsNothing : Prop :=
  ∀ (i : Instr) (s : State) (k : Word), i ≠ .rd 7 →
    Sys2Proof.Machine.exec i (s.shiftTime k) = mapNext (fun t => t.shiftTime k) (Sys2Proof.Machine.exec i s)

/-- 10_state.md R45: the pads as functions of the state, for every line; a line that is not selected is never driven. -/
def Obligations.PadsFollowPhaseAndLine : Prop :=
  ∀ (s : State) (l : LineIdx),
    (s.lineOe l = true ↔ l = s.line ∧ (s.phase = 1 ∨ s.phase = 2)) ∧
    (s.lineOut l = false ↔ l = s.line ∧ s.phase = 1)

/-! ### The frame decoder (42_frame_decoder.md) -/

/-- 42_frame_decoder.md R162, R163: the zones of the classifier, for every duration. -/
def Obligations.ClassifierZones : Prop :=
  ∀ d : Byte,
    (classify d = .zero ↔ 15 ≤ d.toNat ∧ d.toNat < 40) ∧
    (classify d = .one ↔ 60 ≤ d.toNat ∧ d.toNat < 90) ∧
    (classify d = .invalid ↔ d.toNat < 15 ∨ (40 ≤ d.toNat ∧ d.toNat < 60) ∨ 90 ≤ d.toNat)

/-- 42_frame_decoder.md R164, 30_encoding.md R87: the pulse captured i-th is bit `39 - i` of the frame, and bit
`8k + j` in order of arrival is bit `7 - j` of byte k. -/
def Obligations.PackPutsFirstPulseHighest : Prop :=
  ∀ p : PulseFile,
    (∀ (i : Nat) (h : i < 40), (pack p).getLsbD (39 - i) = (classify p[i] == .one)) ∧
    (∀ (k j : Nat) (hk : k < 5) (hj : j < 8),
      (frameByte (pack p) k).getLsbD (7 - j) = (classify (p[8 * k + j]'(by omega)) == .one))

/-- 42_frame_decoder.md R165: the checksum is the sum of the first four bytes modulo 256. -/
def Obligations.ChecksumIsByteSum : Prop :=
  ∀ f : Frame, (checksum f).toNat =
    ((f.extractLsb' 32 8).toNat + (f.extractLsb' 24 8).toNat + (f.extractLsb' 16 8).toNat +
      (f.extractLsb' 8 8).toNat) % 256

/-- 42_frame_decoder.md R166: flipping any one bit of byte 4 of a frame that passes makes it fail. -/
def Obligations.FlippedChecksumBitIsCaught : Prop :=
  ∀ (f : Frame) (k : Nat), k < 8 → checksum f = f.extractLsb' 0 8 →
    checksum (f ^^^ BitVec.ofNat 40 (2 ^ k)) ≠ (f ^^^ BitVec.ofNat 40 (2 ^ k)).extractLsb' 0 8

/-- 42_frame_decoder.md R171, 30_encoding.md R88: the temperature is the signed magnitude as an integer, for every
raw value, both zeros giving 0, in the range -32767 to 32767, and TEMPERATURE reads it. -/
def Obligations.TemperatureIsSignedMagnitude : Prop :=
  ∀ f : Frame,
    (temperature f).toInt =
      (if f.getLsbD 23 then -((f.extractLsb' 8 15).toNat : Int) else ((f.extractLsb' 8 15).toNat : Int)) ∧
    -32767 ≤ (temperature f).toInt ∧ (temperature f).toInt ≤ 32767 ∧
    (∀ s : State, (State.readReg { s with temp := temperature f } 6).toInt = (temperature f).toInt)

/-- 42_frame_decoder.md R170: the humidity is the first two bytes as an unsigned number, high byte first,
and HUMIDITY reads it. -/
def Obligations.HumidityIsFirstTwoBytes : Prop :=
  ∀ f : Frame, (humidity f).toNat = (f.extractLsb' 32 8).toNat * 256 + (f.extractLsb' 24 8).toNat ∧
    (∀ s : State, (State.readReg { s with hum := humidity f } 5).toNat = (humidity f).toNat)

/-- 42_frame_decoder.md R160, R161, R167: the DECODE tick in its three cases: the lowest out-of-zone pulse, whatever the
checksum; a frame whose checksum differs, kept without values; a frame whose checksum agrees, with its values. -/
def Obligations.DecodeTickByOutcome : Prop :=
  ∀ s : State,
    (∀ (i : Nat) (h : i < 40), classify s.pulse[i] = .invalid →
      (∀ (j : Nat) (hj : j < i), classify (s.pulse[j]'(by omega)) ≠ .invalid) →
      Sys2Proof.Machine.exec .phaseDecode s = .next { s with
        now := s.now + 1, phase := 0, busy := false, done := true, outcome := .invalidPulseWidth,
        failbit := BitVec.ofNat 6 i }) ∧
    ((∀ (i : Nat) (h : i < 40), classify s.pulse[i] ≠ .invalid) →
      checksum (pack s.pulse) ≠ (pack s.pulse).extractLsb' 0 8 →
      Sys2Proof.Machine.exec .phaseDecode s = .next { s with
        now := s.now + 1, phase := 0, busy := false, done := true, outcome := .checksumMismatch,
        frame := pack s.pulse, csumCalc := checksum (pack s.pulse) }) ∧
    ((∀ (i : Nat) (h : i < 40), classify s.pulse[i] ≠ .invalid) →
      checksum (pack s.pulse) = (pack s.pulse).extractLsb' 0 8 →
      Sys2Proof.Machine.exec .phaseDecode s = .next { s with
        now := s.now + 1, phase := 0, busy := false, done := true, outcome := .ok,
        frame := pack s.pulse, csumCalc := checksum (pack s.pulse),
        hum := humidity (pack s.pulse), temp := temperature (pack s.pulse) })

/-- 42_frame_decoder.md R166, R169: DECODE always completes, and with 40 pulses in zone it reports Ok exactly when byte 4
of the received bits is the sum of the first four bytes modulo 256. -/
def Obligations.DecodeOkExactlyOnChecksum : Prop :=
  ∀ s : State, ∃ t, Sys2Proof.Machine.exec .phaseDecode s = .next t ∧ t.outcome ≠ .timeout ∧
    (t.outcome = .invalidPulseWidth ↔ ∃ (i : Nat) (h : i < 40), classify s.pulse[i] = .invalid) ∧
    (t.outcome = .ok → t.frame = pack s.pulse) ∧
    ((∀ (i : Nat) (h : i < 40), classify s.pulse[i] ≠ .invalid) →
      (t.outcome = .ok ↔ (t.frame.extractLsb' 0 8).toNat =
        ((t.frame.extractLsb' 32 8).toNat + (t.frame.extractLsb' 24 8).toNat +
          (t.frame.extractLsb' 16 8).toNat + (t.frame.extractLsb' 8 8).toNat) % 256))

/-! ### Reset (70_reset_and_hazards.md) -/

/-- 10_state.md R50, 20_memory.md R61: the reset value of every element and of every register, and no line driven. -/
def Obligations.ResetValues : Prop :=
  (let r := Sys2Proof.Machine.State.reset
   r.phase = 0 ∧ r.busy = false ∧ r.done = false ∧ r.cmderr = false ∧ r.outcome = .ok ∧ r.bitidx = 0 ∧
   r.t0 = 0 ∧ r.now = 0 ∧ r.line = 0 ∧ r.failbit = 0x3F ∧ r.failphase = 0 ∧ r.csumCalc = 0 ∧ r.frame = 0 ∧
   r.hum = 0 ∧ r.temp = 0 ∧ (∀ (i : Nat) (h : i < 40), r.pulse[i] = 0) ∧
   (∀ l, r.lineOe l = false) ∧
   (∀ a : WordIdx, r.readReg a = if a = 2 then 0x0000003F else 0))

/-- 70_reset_and_hazards.md R240, R242: a reset cycle puts every element to its reset value in any state, an attempt in
progress included, wins over the host access in it, and answers a read with the reset value. -/
def Obligations.ResetCycleWins : Prop :=
  ∀ (s : State) (access : Option Transaction) (rest : List Input), s.inputs = .reset access :: rest →
    ∃ v, Sys2Proof.Machine.step s = .next { Sys2Proof.Machine.State.reset with
        numLines := s.numLines, lineIn := s.lineIn, inputs := rest, draws := s.draws, rdata := v } ∧
      (∀ t a, access = some t → decodeTransaction t = .rd a → v = if a = 2 then 0x0000003F else 0) ∧
      ((∀ t a, access = some t → decodeTransaction t ≠ .rd a) → v = s.rdata)

/-! ### Invariants and whole-machine rules -/

/-- The invariant holds at reset (10_state.md R50). -/
def Obligations.ResetSatisfiesInvariant : Prop := Sys2Proof.Machine.State.reset.Inv

/-- Every step, of whichever agent, keeps the invariant: legal phase codes (10_state.md R22), BUSY exactly outside IDLE,
the bit index of each phase, captured pulses in 1 to 100 and the rest 0 (R40), no phase over its bound
(41_pulse_sampler.md R135), results by outcome (42_frame_decoder.md R168). -/
def Obligations.EveryStepKeepsInvariant : Prop :=
  ∀ s t : State, s.Inv → Sys2Proof.Machine.step s = .next t → t.Inv

/-- From every state of the invariant the machine goes on: no fault and no refusal is ever reached (60_exceptions.md
R211, 10_state.md R22). -/
def Obligations.InvariantStatesNeverStop : Prop :=
  ∀ s : State, s.Inv → ∃ t, Sys2Proof.Machine.step s = .next t

/-- 00_scope.md R15, 70_reset_and_hazards.md R252: from any state of the invariant in which an attempt runs, with only
ticks to come and whatever the line does, BUSY is 0 within 10302 ticks. -/
def Obligations.AttemptEndsWithinBound : Prop :=
  ∀ s : State, s.Inv → s.busy = true → s.OnlyTicks →
    ∃ k t, k ≤ 10302 ∧ Sys2Proof.core.run k s = .next t ∧ t.busy = false ∧ t.done = true

/-- 70_reset_and_hazards.md R253: counting ticks after an accepted START, whatever the line does, the attempt runs for
at least 2085 ticks: BUSY is 1 after each of the first 2084. -/
def Obligations.AttemptLastsAtLeast : Prop :=
  ∀ (l : LineIdx) (s u : State) (k : Nat), s.busy = false → Config.NumLinesOk s.numLines →
    l.toNat < s.numLines → s.OnlyTicks →
    Sys2Proof.Machine.exec (.start l) s = .next u → k < 2085 →
    ∃ t, Sys2Proof.core.run k u = .next t ∧ t.busy = true

/-- 41_pulse_sampler.md R126, R135: after an accepted START the line is driven low for exactly 2000 ticks, whatever the
line shows: the phase is START_LOW after each of the first 1999 and RELEASE after the 2000th. -/
def Obligations.StartLowLastsExactly : Prop :=
  ∀ (l : LineIdx) (s u : State), s.busy = false → l.toNat < s.numLines → s.OnlyTicks →
    Sys2Proof.Machine.exec (.start l) s = .next u →
    (∀ k < 2000, ∃ t, Sys2Proof.core.run k u = .next t ∧ t.phase = 1 ∧ t.lineOe l = true ∧ t.lineOut l = false) ∧
    (∃ t, Sys2Proof.core.run 2000 u = .next t ∧ t.phase = 2 ∧ t.t0 = s.now + 2000 ∧ t.lineOut l = true)

/-- 40_host_interface.md R107: once an attempt has ended its results stay, through every tick and every host access but
an accepted START, until the next reset. -/
def Obligations.ResultsStayUntilNextStart : Prop :=
  ∀ s t : State, s.phase = 0 → s.busy = false → Sys2Proof.Machine.step s = .next t →
    (∀ access rest, s.inputs ≠ .reset access :: rest) →
    (∀ tr rest l, s.inputs = .host tr :: rest → decodeTransaction tr = .start l → s.numLines ≤ l.toNat) →
    s.SameResults t

/-- 10_state.md R43: BUSY is set by nothing but an accepted START. -/
def Obligations.BusySetOnlyByAcceptedStart : Prop :=
  ∀ s t : State, s.busy = false → Sys2Proof.Machine.step s = .next t → t.busy = true →
    ∃ tr rest l, s.inputs = .host tr :: rest ∧ decodeTransaction tr = .start l ∧ l.toNat < s.numLines ∧
      t = State.beginAttempt { s with inputs := rest } l

/-- 60_exceptions.md R214, R216, 42_frame_decoder.md R168, R169: outside reset an attempt ends only by a tick, in a wait
phase with Timeout or in DECODE without it, with exactly one outcome reported in DONE, OUTCOME and the result registers. -/
def Obligations.AttemptEndsWithOneReport : Prop :=
  ∀ s t : State, s.Inv → s.busy = true → Sys2Proof.Machine.step s = .next t → t.busy = false →
    (∀ access rest, s.inputs ≠ .reset access :: rest) →
    (∀ tr rest, s.inputs ≠ .host tr :: rest) ∧ EndsAttempt s t ∧ t.phase = 0 ∧ t.Reported ∧
    (t.outcome = .timeout → 3 ≤ s.phase.toNat ∧ s.phase.toNat ≤ 7 ∧ t.failphase = s.phase) ∧
    (t.outcome ≠ .timeout → s.phase = 8)

/-- 40_host_interface.md R107, 10_state.md R31, R35, R36: HUMIDITY and TEMPERATURE hold a measurement exactly when VALID
is 1: then they are the values of the frame of 40 in-zone pulses whose checksum agrees, otherwise they are 0. -/
def Obligations.ValidMeansMeasurement : Prop :=
  ∀ s : State, s.Inv →
    (s.valid = true → s.hum = humidity (pack s.pulse) ∧ s.temp = temperature (pack s.pulse) ∧
      checksum (pack s.pulse) = frameByte (pack s.pulse) 4 ∧
      ∀ (i : Nat) (h : i < 40), classify s.pulse[i] ≠ .invalid) ∧
    (s.valid = false → s.hum = 0 ∧ s.temp = 0)

/-- 30_encoding.md R84, R86, R89, 93_implementation_defined.md I8: the codes that never appear, in every state of the invariant. -/
def Obligations.ReservedCodesNeverAppear : Prop :=
  ∀ s : State, s.Inv →
    s.phase.toNat ≤ 8 ∧
    (s.failphase = 0 ∨ 3 ≤ s.failphase.toNat ∧ s.failphase.toNat ≤ 7) ∧
    (s.failphase ≠ 0 ↔ s.done = true ∧ s.outcome = .timeout) ∧
    (s.failbit = 0x3F ∨ s.failbit.toNat < 40) ∧
    (s.failbit ≠ 0x3F ↔ s.done = true ∧ s.outcome = .invalidPulseWidth) ∧
    s.bitidx.toNat ≤ 40 ∧ (∀ (i : Nat) (h : i < 40), s.pulse[i].toNat ≤ 100)

/-- 10_state.md R45: in every state of the invariant at most the selected line is driven, only while an attempt runs, and
that line exists. -/
def Obligations.OnlyLegalLineIsDriven : Prop :=
  ∀ (s : State) (l : LineIdx), s.Inv → s.lineOe l = true → s.busy = true ∧ l = s.line ∧ l.toNat < s.numLines

/-- 70_reset_and_hazards.md R255, 40_host_interface.md R101: while BUSY is 1 the frame, the values and DIAG read as START
left them. R255's words have DIAG read 0 too; the clause on DIAG follows R101 and 10_state.md R32 instead, FAILBIT
0x3F (log entry 19). -/
def Obligations.ResultsReadClearedWhileBusy : Prop :=
  ∀ s : State, s.Inv → s.busy = true →
    s.readReg 2 = 0x0000003F ∧ s.readReg 3 = 0 ∧ s.readReg 4 = 0 ∧ s.readReg 5 = 0 ∧ s.readReg 6 = 0

/-! ### The host's procedures (43_host_procedures.md) -/

/-- 43_host_procedures.md R192 to R194: with at least one attempt allowed, the host stops at the first Ok or after the
last allowed attempt, reports the outcome of the last attempt made, and inserts one delay fewer than it makes attempts. -/
def Obligations.RetryStopsAtFirstOk : Prop :=
  ∀ (m : Nat) (attempt : Nat → ReadOutcome), 1 ≤ m →
    1 ≤ (retry m attempt).attempts ∧ (retry m attempt).attempts ≤ m ∧
    (retry m attempt).outcome = attempt ((retry m attempt).attempts - 1) ∧
    (retry m attempt).delays = (retry m attempt).attempts - 1 ∧
    (∀ k < (retry m attempt).attempts - 1, attempt k ≠ .ok) ∧
    ((retry m attempt).attempts < m → (retry m attempt).outcome = .ok)

/-- 30_encoding.md R93: for every line the host's `START <L>` performs the transaction that selects START on that line,
and `SELECT <L>` the one that selects SETLINE on it. -/
def Obligations.PseudoStartAndSelectEncode : Prop :=
  ∀ l : LineIdx,
    (∃ t, (HostAgent.initial.act (pseudoStart (.const (l.setWidth 32)))).2 = .access t ∧
      decodeTransaction t = .start l) ∧
    (∃ t, (HostAgent.initial.act (pseudoSelect (.const (l.setWidth 32)))).2 = .access t ∧
      decodeTransaction t = .setline l)
end

