-- ==== Sys2Proof/Laws/HostProgram.lean ====
section
/-! SUPPORT. What a configuration in its ranges gives the host: one line per configured pin, in range, and a batch program. -/

namespace Sys2Proof.Machine

/-- Looking every element up: where each is found in a set, the list of results has one entry per element, all in it. -/
theorem mapM_lookup_some {α β : Type} {f : α → Option β} {ok : β → Prop} :
    ∀ {xs : List α}, (∀ x ∈ xs, ∃ y, f x = some y ∧ ok y) →
      ∃ ys, xs.mapM f = some ys ∧ ys.length = xs.length ∧ ∀ y ∈ ys, ok y
  | [], _ => ⟨[], rfl, rfl, fun _ h => nomatch h⟩
  | x :: xs, h => by
    obtain ⟨y, hy, oky⟩ := h x (by simp)
    obtain ⟨ys, hys, hlen, okys⟩ := mapM_lookup_some (xs := xs) fun z hz => h z (by simp [hz])
    exact ⟨y :: ys, by simp [List.mapM_cons, hy, hys], by simp [hlen], by simp [oky]; exact okys⟩

/-- A configuration in its ranges has a line for each configured pin, and every line exists (43_host_procedures.md R196, R197). -/
theorem lines_of_ok {p : HostParams} {numLines : Nat} (h : p.Ok numLines) :
    ∃ ls, p.lines = some ls ∧ ls.length = p.pins.length ∧ ∀ l ∈ ls, l.toNat < numLines :=
  mapM_lookup_some fun pin hp => by simpa using (Option.any_eq_true _ _).mp (h.2 pin hp).2

/-- The batch program of a configuration in its ranges is that of R200 over its lines. -/
theorem batchProgram_of_ok {p : HostParams} {numLines : Nat} (h : p.Ok numLines) :
    ∃ ls, p.lines = some ls ∧ p.batchProgram numLines = some (batchProgram ls p.maxAttempts) := by
  obtain ⟨ls, hl, -⟩ := lines_of_ok h
  exact ⟨ls, hl, by simp only [HostParams.batchProgram, if_pos h, hl, Option.map_some]⟩

/-- A configuration outside its ranges has none. -/
theorem batchProgram_of_not_ok {p : HostParams} {numLines : Nat} (h : ¬ p.Ok numLines) :
    p.batchProgram numLines = none := if_neg h

end Sys2Proof.Machine
end

