-- ==== Sys2Proof/Laws/State.lean ====
section
/-! SUPPORT. What each total update of the state does to each field: one lemma per field per update, so that no proof unfolds a record update. -/

namespace Sys2Proof.Machine

@[simp] theorem State.advanceNow_phase (s : State) : s.advanceNow.phase = s.phase := rfl
@[simp] theorem State.advanceNow_t0 (s : State) : s.advanceNow.t0 = s.t0 := rfl
@[simp] theorem State.advanceNow_bitidx (s : State) : s.advanceNow.bitidx = s.bitidx := rfl
@[simp] theorem State.advanceNow_pulse (s : State) : s.advanceNow.pulse = s.pulse := rfl
@[simp] theorem State.advanceNow_frame (s : State) : s.advanceNow.frame = s.frame := rfl
@[simp] theorem State.advanceNow_csumCalc (s : State) : s.advanceNow.csumCalc = s.csumCalc := rfl
@[simp] theorem State.advanceNow_hum (s : State) : s.advanceNow.hum = s.hum := rfl
@[simp] theorem State.advanceNow_temp (s : State) : s.advanceNow.temp = s.temp := rfl
@[simp] theorem State.advanceNow_busy (s : State) : s.advanceNow.busy = s.busy := rfl
@[simp] theorem State.advanceNow_done (s : State) : s.advanceNow.done = s.done := rfl
@[simp] theorem State.advanceNow_outcome (s : State) : s.advanceNow.outcome = s.outcome := rfl
@[simp] theorem State.advanceNow_cmderr (s : State) : s.advanceNow.cmderr = s.cmderr := rfl
@[simp] theorem State.advanceNow_failphase (s : State) : s.advanceNow.failphase = s.failphase := rfl
@[simp] theorem State.advanceNow_failbit (s : State) : s.advanceNow.failbit = s.failbit := rfl
@[simp] theorem State.advanceNow_line (s : State) : s.advanceNow.line = s.line := rfl
@[simp] theorem State.advanceNow_now (s : State) : s.advanceNow.now = s.now + 1 := rfl
@[simp] theorem State.advanceNow_numLines (s : State) : s.advanceNow.numLines = s.numLines := rfl
@[simp] theorem State.advanceNow_lineIn (s : State) : s.advanceNow.lineIn = s.lineIn := rfl
@[simp] theorem State.advanceNow_inputs (s : State) : s.advanceNow.inputs = s.inputs := rfl
@[simp] theorem State.advanceNow_draws (s : State) : s.advanceNow.draws = s.draws := rfl
@[simp] theorem State.advanceNow_rdata (s : State) : s.advanceNow.rdata = s.rdata := rfl

@[simp] theorem State.enterPhase_phase (s : State) (p : PhaseCode) : (s.enterPhase p).phase = p := rfl
@[simp] theorem State.enterPhase_t0 (s : State) (p : PhaseCode) : (s.enterPhase p).t0 = s.now := rfl
@[simp] theorem State.enterPhase_bitidx (s : State) (p : PhaseCode) : (s.enterPhase p).bitidx = s.bitidx := rfl
@[simp] theorem State.enterPhase_pulse (s : State) (p : PhaseCode) : (s.enterPhase p).pulse = s.pulse := rfl
@[simp] theorem State.enterPhase_frame (s : State) (p : PhaseCode) : (s.enterPhase p).frame = s.frame := rfl
@[simp] theorem State.enterPhase_csumCalc (s : State) (p : PhaseCode) : (s.enterPhase p).csumCalc = s.csumCalc := rfl
@[simp] theorem State.enterPhase_hum (s : State) (p : PhaseCode) : (s.enterPhase p).hum = s.hum := rfl
@[simp] theorem State.enterPhase_temp (s : State) (p : PhaseCode) : (s.enterPhase p).temp = s.temp := rfl
@[simp] theorem State.enterPhase_busy (s : State) (p : PhaseCode) : (s.enterPhase p).busy = s.busy := rfl
@[simp] theorem State.enterPhase_done (s : State) (p : PhaseCode) : (s.enterPhase p).done = s.done := rfl
@[simp] theorem State.enterPhase_outcome (s : State) (p : PhaseCode) : (s.enterPhase p).outcome = s.outcome := rfl
@[simp] theorem State.enterPhase_cmderr (s : State) (p : PhaseCode) : (s.enterPhase p).cmderr = s.cmderr := rfl
@[simp] theorem State.enterPhase_failphase (s : State) (p : PhaseCode) : (s.enterPhase p).failphase = s.failphase := rfl
@[simp] theorem State.enterPhase_failbit (s : State) (p : PhaseCode) : (s.enterPhase p).failbit = s.failbit := rfl
@[simp] theorem State.enterPhase_line (s : State) (p : PhaseCode) : (s.enterPhase p).line = s.line := rfl
@[simp] theorem State.enterPhase_now (s : State) (p : PhaseCode) : (s.enterPhase p).now = s.now := rfl
@[simp] theorem State.enterPhase_numLines (s : State) (p : PhaseCode) : (s.enterPhase p).numLines = s.numLines := rfl
@[simp] theorem State.enterPhase_lineIn (s : State) (p : PhaseCode) : (s.enterPhase p).lineIn = s.lineIn := rfl
@[simp] theorem State.enterPhase_inputs (s : State) (p : PhaseCode) : (s.enterPhase p).inputs = s.inputs := rfl
@[simp] theorem State.enterPhase_draws (s : State) (p : PhaseCode) : (s.enterPhase p).draws = s.draws := rfl
@[simp] theorem State.enterPhase_rdata (s : State) (p : PhaseCode) : (s.enterPhase p).rdata = s.rdata := rfl

@[simp] theorem State.endAttempt_phase (s : State) (o : ReadOutcome) : (s.endAttempt o).phase = Phase.idle := rfl
@[simp] theorem State.endAttempt_t0 (s : State) (o : ReadOutcome) : (s.endAttempt o).t0 = s.t0 := rfl
@[simp] theorem State.endAttempt_bitidx (s : State) (o : ReadOutcome) : (s.endAttempt o).bitidx = s.bitidx := rfl
@[simp] theorem State.endAttempt_pulse (s : State) (o : ReadOutcome) : (s.endAttempt o).pulse = s.pulse := rfl
@[simp] theorem State.endAttempt_frame (s : State) (o : ReadOutcome) : (s.endAttempt o).frame = s.frame := rfl
@[simp] theorem State.endAttempt_csumCalc (s : State) (o : ReadOutcome) : (s.endAttempt o).csumCalc = s.csumCalc := rfl
@[simp] theorem State.endAttempt_hum (s : State) (o : ReadOutcome) : (s.endAttempt o).hum = s.hum := rfl
@[simp] theorem State.endAttempt_temp (s : State) (o : ReadOutcome) : (s.endAttempt o).temp = s.temp := rfl
@[simp] theorem State.endAttempt_busy (s : State) (o : ReadOutcome) : (s.endAttempt o).busy = false := rfl
@[simp] theorem State.endAttempt_done (s : State) (o : ReadOutcome) : (s.endAttempt o).done = true := rfl
@[simp] theorem State.endAttempt_outcome (s : State) (o : ReadOutcome) : (s.endAttempt o).outcome = o := rfl
@[simp] theorem State.endAttempt_cmderr (s : State) (o : ReadOutcome) : (s.endAttempt o).cmderr = s.cmderr := rfl
@[simp] theorem State.endAttempt_failphase (s : State) (o : ReadOutcome) : (s.endAttempt o).failphase = s.failphase := rfl
@[simp] theorem State.endAttempt_failbit (s : State) (o : ReadOutcome) : (s.endAttempt o).failbit = s.failbit := rfl
@[simp] theorem State.endAttempt_line (s : State) (o : ReadOutcome) : (s.endAttempt o).line = s.line := rfl
@[simp] theorem State.endAttempt_now (s : State) (o : ReadOutcome) : (s.endAttempt o).now = s.now := rfl
@[simp] theorem State.endAttempt_numLines (s : State) (o : ReadOutcome) : (s.endAttempt o).numLines = s.numLines := rfl
@[simp] theorem State.endAttempt_lineIn (s : State) (o : ReadOutcome) : (s.endAttempt o).lineIn = s.lineIn := rfl
@[simp] theorem State.endAttempt_inputs (s : State) (o : ReadOutcome) : (s.endAttempt o).inputs = s.inputs := rfl
@[simp] theorem State.endAttempt_draws (s : State) (o : ReadOutcome) : (s.endAttempt o).draws = s.draws := rfl
@[simp] theorem State.endAttempt_rdata (s : State) (o : ReadOutcome) : (s.endAttempt o).rdata = s.rdata := rfl

@[simp] theorem State.raiseTimeout_phase (s : State) (p : PhaseCode) : (s.raiseTimeout p).phase = Phase.idle := rfl
@[simp] theorem State.raiseTimeout_t0 (s : State) (p : PhaseCode) : (s.raiseTimeout p).t0 = s.t0 := rfl
@[simp] theorem State.raiseTimeout_bitidx (s : State) (p : PhaseCode) : (s.raiseTimeout p).bitidx = s.bitidx := rfl
@[simp] theorem State.raiseTimeout_pulse (s : State) (p : PhaseCode) : (s.raiseTimeout p).pulse = s.pulse := rfl
@[simp] theorem State.raiseTimeout_frame (s : State) (p : PhaseCode) : (s.raiseTimeout p).frame = s.frame := rfl
@[simp] theorem State.raiseTimeout_csumCalc (s : State) (p : PhaseCode) : (s.raiseTimeout p).csumCalc = s.csumCalc := rfl
@[simp] theorem State.raiseTimeout_hum (s : State) (p : PhaseCode) : (s.raiseTimeout p).hum = s.hum := rfl
@[simp] theorem State.raiseTimeout_temp (s : State) (p : PhaseCode) : (s.raiseTimeout p).temp = s.temp := rfl
@[simp] theorem State.raiseTimeout_busy (s : State) (p : PhaseCode) : (s.raiseTimeout p).busy = false := rfl
@[simp] theorem State.raiseTimeout_done (s : State) (p : PhaseCode) : (s.raiseTimeout p).done = true := rfl
@[simp] theorem State.raiseTimeout_outcome (s : State) (p : PhaseCode) : (s.raiseTimeout p).outcome = .timeout := rfl
@[simp] theorem State.raiseTimeout_cmderr (s : State) (p : PhaseCode) : (s.raiseTimeout p).cmderr = s.cmderr := rfl
@[simp] theorem State.raiseTimeout_failphase (s : State) (p : PhaseCode) : (s.raiseTimeout p).failphase = p := rfl
@[simp] theorem State.raiseTimeout_failbit (s : State) (p : PhaseCode) : (s.raiseTimeout p).failbit = s.failbit := rfl
@[simp] theorem State.raiseTimeout_line (s : State) (p : PhaseCode) : (s.raiseTimeout p).line = s.line := rfl
@[simp] theorem State.raiseTimeout_now (s : State) (p : PhaseCode) : (s.raiseTimeout p).now = s.now := rfl
@[simp] theorem State.raiseTimeout_numLines (s : State) (p : PhaseCode) : (s.raiseTimeout p).numLines = s.numLines := rfl
@[simp] theorem State.raiseTimeout_lineIn (s : State) (p : PhaseCode) : (s.raiseTimeout p).lineIn = s.lineIn := rfl
@[simp] theorem State.raiseTimeout_inputs (s : State) (p : PhaseCode) : (s.raiseTimeout p).inputs = s.inputs := rfl
@[simp] theorem State.raiseTimeout_draws (s : State) (p : PhaseCode) : (s.raiseTimeout p).draws = s.draws := rfl
@[simp] theorem State.raiseTimeout_rdata (s : State) (p : PhaseCode) : (s.raiseTimeout p).rdata = s.rdata := rfl

@[simp] theorem State.raiseInvalidPulseWidth_phase (s : State) (i : Nat) : (s.raiseInvalidPulseWidth i).phase = Phase.idle := rfl
@[simp] theorem State.raiseInvalidPulseWidth_t0 (s : State) (i : Nat) : (s.raiseInvalidPulseWidth i).t0 = s.t0 := rfl
@[simp] theorem State.raiseInvalidPulseWidth_bitidx (s : State) (i : Nat) : (s.raiseInvalidPulseWidth i).bitidx = s.bitidx := rfl
@[simp] theorem State.raiseInvalidPulseWidth_pulse (s : State) (i : Nat) : (s.raiseInvalidPulseWidth i).pulse = s.pulse := rfl
@[simp] theorem State.raiseInvalidPulseWidth_frame (s : State) (i : Nat) : (s.raiseInvalidPulseWidth i).frame = s.frame := rfl
@[simp] theorem State.raiseInvalidPulseWidth_csumCalc (s : State) (i : Nat) : (s.raiseInvalidPulseWidth i).csumCalc = s.csumCalc := rfl
@[simp] theorem State.raiseInvalidPulseWidth_hum (s : State) (i : Nat) : (s.raiseInvalidPulseWidth i).hum = s.hum := rfl
@[simp] theorem State.raiseInvalidPulseWidth_temp (s : State) (i : Nat) : (s.raiseInvalidPulseWidth i).temp = s.temp := rfl
@[simp] theorem State.raiseInvalidPulseWidth_busy (s : State) (i : Nat) : (s.raiseInvalidPulseWidth i).busy = false := rfl
@[simp] theorem State.raiseInvalidPulseWidth_done (s : State) (i : Nat) : (s.raiseInvalidPulseWidth i).done = true := rfl
@[simp] theorem State.raiseInvalidPulseWidth_outcome (s : State) (i : Nat) : (s.raiseInvalidPulseWidth i).outcome = .invalidPulseWidth := rfl
@[simp] theorem State.raiseInvalidPulseWidth_cmderr (s : State) (i : Nat) : (s.raiseInvalidPulseWidth i).cmderr = s.cmderr := rfl
@[simp] theorem State.raiseInvalidPulseWidth_failphase (s : State) (i : Nat) : (s.raiseInvalidPulseWidth i).failphase = s.failphase := rfl
@[simp] theorem State.raiseInvalidPulseWidth_failbit (s : State) (i : Nat) : (s.raiseInvalidPulseWidth i).failbit = BitVec.ofNat 6 i := rfl
@[simp] theorem State.raiseInvalidPulseWidth_line (s : State) (i : Nat) : (s.raiseInvalidPulseWidth i).line = s.line := rfl
@[simp] theorem State.raiseInvalidPulseWidth_now (s : State) (i : Nat) : (s.raiseInvalidPulseWidth i).now = s.now := rfl
@[simp] theorem State.raiseInvalidPulseWidth_numLines (s : State) (i : Nat) : (s.raiseInvalidPulseWidth i).numLines = s.numLines := rfl
@[simp] theorem State.raiseInvalidPulseWidth_lineIn (s : State) (i : Nat) : (s.raiseInvalidPulseWidth i).lineIn = s.lineIn := rfl
@[simp] theorem State.raiseInvalidPulseWidth_inputs (s : State) (i : Nat) : (s.raiseInvalidPulseWidth i).inputs = s.inputs := rfl
@[simp] theorem State.raiseInvalidPulseWidth_draws (s : State) (i : Nat) : (s.raiseInvalidPulseWidth i).draws = s.draws := rfl
@[simp] theorem State.raiseInvalidPulseWidth_rdata (s : State) (i : Nat) : (s.raiseInvalidPulseWidth i).rdata = s.rdata := rfl

@[simp] theorem State.raiseChecksumMismatch_phase (s : State) : s.raiseChecksumMismatch.phase = Phase.idle := rfl
@[simp] theorem State.raiseChecksumMismatch_t0 (s : State) : s.raiseChecksumMismatch.t0 = s.t0 := rfl
@[simp] theorem State.raiseChecksumMismatch_bitidx (s : State) : s.raiseChecksumMismatch.bitidx = s.bitidx := rfl
@[simp] theorem State.raiseChecksumMismatch_pulse (s : State) : s.raiseChecksumMismatch.pulse = s.pulse := rfl
@[simp] theorem State.raiseChecksumMismatch_frame (s : State) : s.raiseChecksumMismatch.frame = s.frame := rfl
@[simp] theorem State.raiseChecksumMismatch_csumCalc (s : State) : s.raiseChecksumMismatch.csumCalc = s.csumCalc := rfl
@[simp] theorem State.raiseChecksumMismatch_hum (s : State) : s.raiseChecksumMismatch.hum = s.hum := rfl
@[simp] theorem State.raiseChecksumMismatch_temp (s : State) : s.raiseChecksumMismatch.temp = s.temp := rfl
@[simp] theorem State.raiseChecksumMismatch_busy (s : State) : s.raiseChecksumMismatch.busy = false := rfl
@[simp] theorem State.raiseChecksumMismatch_done (s : State) : s.raiseChecksumMismatch.done = true := rfl
@[simp] theorem State.raiseChecksumMismatch_outcome (s : State) : s.raiseChecksumMismatch.outcome = .checksumMismatch := rfl
@[simp] theorem State.raiseChecksumMismatch_cmderr (s : State) : s.raiseChecksumMismatch.cmderr = s.cmderr := rfl
@[simp] theorem State.raiseChecksumMismatch_failphase (s : State) : s.raiseChecksumMismatch.failphase = s.failphase := rfl
@[simp] theorem State.raiseChecksumMismatch_failbit (s : State) : s.raiseChecksumMismatch.failbit = s.failbit := rfl
@[simp] theorem State.raiseChecksumMismatch_line (s : State) : s.raiseChecksumMismatch.line = s.line := rfl
@[simp] theorem State.raiseChecksumMismatch_now (s : State) : s.raiseChecksumMismatch.now = s.now := rfl
@[simp] theorem State.raiseChecksumMismatch_numLines (s : State) : s.raiseChecksumMismatch.numLines = s.numLines := rfl
@[simp] theorem State.raiseChecksumMismatch_lineIn (s : State) : s.raiseChecksumMismatch.lineIn = s.lineIn := rfl
@[simp] theorem State.raiseChecksumMismatch_inputs (s : State) : s.raiseChecksumMismatch.inputs = s.inputs := rfl
@[simp] theorem State.raiseChecksumMismatch_draws (s : State) : s.raiseChecksumMismatch.draws = s.draws := rfl
@[simp] theorem State.raiseChecksumMismatch_rdata (s : State) : s.raiseChecksumMismatch.rdata = s.rdata := rfl

@[simp] theorem State.beginAttempt_phase (s : State) (l : LineIdx) : (s.beginAttempt l).phase = Phase.startLow := rfl
@[simp] theorem State.beginAttempt_t0 (s : State) (l : LineIdx) : (s.beginAttempt l).t0 = s.now := rfl
@[simp] theorem State.beginAttempt_bitidx (s : State) (l : LineIdx) : (s.beginAttempt l).bitidx = 0 := rfl
@[simp] theorem State.beginAttempt_pulse (s : State) (l : LineIdx) : (s.beginAttempt l).pulse = Vector.replicate 40 0 := rfl
@[simp] theorem State.beginAttempt_frame (s : State) (l : LineIdx) : (s.beginAttempt l).frame = 0 := rfl
@[simp] theorem State.beginAttempt_csumCalc (s : State) (l : LineIdx) : (s.beginAttempt l).csumCalc = 0 := rfl
@[simp] theorem State.beginAttempt_hum (s : State) (l : LineIdx) : (s.beginAttempt l).hum = 0 := rfl
@[simp] theorem State.beginAttempt_temp (s : State) (l : LineIdx) : (s.beginAttempt l).temp = 0 := rfl
@[simp] theorem State.beginAttempt_busy (s : State) (l : LineIdx) : (s.beginAttempt l).busy = true := rfl
@[simp] theorem State.beginAttempt_done (s : State) (l : LineIdx) : (s.beginAttempt l).done = false := rfl
@[simp] theorem State.beginAttempt_outcome (s : State) (l : LineIdx) : (s.beginAttempt l).outcome = .ok := rfl
@[simp] theorem State.beginAttempt_cmderr (s : State) (l : LineIdx) : (s.beginAttempt l).cmderr = false := rfl
@[simp] theorem State.beginAttempt_failphase (s : State) (l : LineIdx) : (s.beginAttempt l).failphase = 0 := rfl
@[simp] theorem State.beginAttempt_failbit (s : State) (l : LineIdx) : (s.beginAttempt l).failbit = noFailbit := rfl
@[simp] theorem State.beginAttempt_line (s : State) (l : LineIdx) : (s.beginAttempt l).line = l := rfl
@[simp] theorem State.beginAttempt_now (s : State) (l : LineIdx) : (s.beginAttempt l).now = s.now := rfl
@[simp] theorem State.beginAttempt_numLines (s : State) (l : LineIdx) : (s.beginAttempt l).numLines = s.numLines := rfl
@[simp] theorem State.beginAttempt_lineIn (s : State) (l : LineIdx) : (s.beginAttempt l).lineIn = s.lineIn := rfl
@[simp] theorem State.beginAttempt_inputs (s : State) (l : LineIdx) : (s.beginAttempt l).inputs = s.inputs := rfl
@[simp] theorem State.beginAttempt_draws (s : State) (l : LineIdx) : (s.beginAttempt l).draws = s.draws := rfl
@[simp] theorem State.beginAttempt_rdata (s : State) (l : LineIdx) : (s.beginAttempt l).rdata = s.rdata := rfl

@[simp] theorem State.resetStep_phase (s : State) : s.resetStep.phase = 0 := rfl
@[simp] theorem State.resetStep_t0 (s : State) : s.resetStep.t0 = 0 := rfl
@[simp] theorem State.resetStep_bitidx (s : State) : s.resetStep.bitidx = 0 := rfl
@[simp] theorem State.resetStep_pulse (s : State) : s.resetStep.pulse = Vector.replicate 40 0 := rfl
@[simp] theorem State.resetStep_frame (s : State) : s.resetStep.frame = 0 := rfl
@[simp] theorem State.resetStep_csumCalc (s : State) : s.resetStep.csumCalc = 0 := rfl
@[simp] theorem State.resetStep_hum (s : State) : s.resetStep.hum = 0 := rfl
@[simp] theorem State.resetStep_temp (s : State) : s.resetStep.temp = 0 := rfl
@[simp] theorem State.resetStep_busy (s : State) : s.resetStep.busy = false := rfl
@[simp] theorem State.resetStep_done (s : State) : s.resetStep.done = false := rfl
@[simp] theorem State.resetStep_outcome (s : State) : s.resetStep.outcome = .ok := rfl
@[simp] theorem State.resetStep_cmderr (s : State) : s.resetStep.cmderr = false := rfl
@[simp] theorem State.resetStep_failphase (s : State) : s.resetStep.failphase = 0 := rfl
@[simp] theorem State.resetStep_failbit (s : State) : s.resetStep.failbit = 0x3F := rfl
@[simp] theorem State.resetStep_line (s : State) : s.resetStep.line = 0 := rfl
@[simp] theorem State.resetStep_now (s : State) : s.resetStep.now = 0 := rfl
@[simp] theorem State.resetStep_numLines (s : State) : s.resetStep.numLines = s.numLines := rfl
@[simp] theorem State.resetStep_lineIn (s : State) : s.resetStep.lineIn = s.lineIn := rfl
@[simp] theorem State.resetStep_inputs (s : State) : s.resetStep.inputs = s.inputs := rfl
@[simp] theorem State.resetStep_draws (s : State) : s.resetStep.draws = s.draws := rfl
@[simp] theorem State.resetStep_rdata (s : State) : s.resetStep.rdata = s.rdata := rfl

end Sys2Proof.Machine
end

