-- ==== Sys2Proof/Laws/Ops.lean ====
section
/-! SUPPORT. What each shared operation can do, said once: the wait phases, the timed phases, the capture, the frame's acceptance, the decoder's search, and the step. -/

namespace Sys2Proof.Machine

/-- The watchdog has passed its bound (41_pulse_sampler.md R122): Timeout, whatever the line shows. -/
theorem waitPhase_timeout {s : State} {p : PhaseCode} {lvl : Bool} {adv : State → Host.Outcome State Fault Refusal}
    (h : Config.params.timeoutUs < s.elapsed.toNat) :
    s.waitPhase p lvl adv = .next (s.advanceNow.raiseTimeout p) := if_pos h

/-- The awaited level is seen in time: the phase advances. -/
theorem waitPhase_advance {s : State} {p : PhaseCode} {lvl : Bool} {adv : State → Host.Outcome State Fault Refusal}
    (h : s.elapsed.toNat ≤ Config.params.timeoutUs) (hv : s.sample = lvl) :
    s.waitPhase p lvl adv = adv s.advanceNow := by
  rw [State.waitPhase, if_neg (by omega), if_pos hv]

/-- The other level is seen in time: the phase goes on. -/
theorem waitPhase_stay {s : State} {p : PhaseCode} {lvl : Bool} {adv : State → Host.Outcome State Fault Refusal}
    (h : s.elapsed.toNat ≤ Config.params.timeoutUs) (hv : s.sample ≠ lvl) :
    s.waitPhase p lvl adv = .next s.advanceNow := by
  rw [State.waitPhase, if_neg (by omega), if_neg hv]

/-- Everything a wait phase can do. -/
theorem waitPhase_cases {s t : State} {p : PhaseCode} {lvl : Bool}
    {adv : State → Host.Outcome State Fault Refusal} (h : s.waitPhase p lvl adv = .next t) :
    (Config.params.timeoutUs < s.elapsed.toNat ∧ t = s.advanceNow.raiseTimeout p) ∨
    (s.elapsed.toNat ≤ Config.params.timeoutUs ∧ s.sample = lvl ∧ adv s.advanceNow = .next t) ∨
    (s.elapsed.toNat ≤ Config.params.timeoutUs ∧ s.sample ≠ lvl ∧ t = s.advanceNow) := by
  by_cases he : Config.params.timeoutUs < s.elapsed.toNat
  · rw [waitPhase_timeout he] at h
    exact .inl ⟨he, (Host.Outcome.next.inj h).symm⟩
  · by_cases hv : s.sample = lvl
    · rw [waitPhase_advance (by omega) hv] at h
      exact .inr (.inl ⟨by omega, hv, h⟩)
    · rw [waitPhase_stay (by omega) hv] at h
      exact .inr (.inr ⟨by omega, hv, (Host.Outcome.next.inj h).symm⟩)

/-- A timed phase at its bound (41_pulse_sampler.md R126, R127). -/
theorem timedPhase_end {s : State} {bound : Nat} {p : PhaseCode} (h : bound ≤ s.elapsed.toNat) :
    s.timedPhase bound p = s.advanceNow.enterPhase p := if_pos h

/-- A timed phase before its bound. -/
theorem timedPhase_stay {s : State} {bound : Nat} {p : PhaseCode} (h : s.elapsed.toNat < bound) :
    s.timedPhase bound p = s.advanceNow := if_neg (by omega)

/-- The capture of a pulse inside the file (41_pulse_sampler.md R132). -/
theorem capturePulse_next {s : State} {d : Byte} (h : s.bitidx.toNat < 40) :
    s.capturePulse d =
      .next ({ s with pulse := s.pulse.set s.bitidx.toNat d h, bitidx := s.bitidx + 1 }.enterPhase
        (if s.bitidx.toNat + 1 = Config.params.nbits then Phase.decode else Phase.bitLow)) := dif_pos h

/-- A capture outside the file stops. -/
theorem capturePulse_fault {s : State} {d : Byte} (h : 40 ≤ s.bitidx.toNat) :
    s.capturePulse d = .fault .pulseIndexOutOfRange := dif_neg (by omega)

/-- Everything a capture that goes on does. -/
theorem capturePulse_cases {s t : State} {d : Byte} (h : s.capturePulse d = .next t) :
    ∃ hb : s.bitidx.toNat < 40,
      t = { s with pulse := s.pulse.set s.bitidx.toNat d hb, bitidx := s.bitidx + 1 }.enterPhase
        (if s.bitidx.toNat + 1 = Config.params.nbits then Phase.decode else Phase.bitLow) := by
  by_cases hb : s.bitidx.toNat < 40
  · rw [capturePulse_next hb] at h
    exact ⟨hb, (Host.Outcome.next.inj h).symm⟩
  · rw [capturePulse_fault (by omega)] at h
    cases h

/-- A frame whose checksum agrees gives its values (42_frame_decoder.md R160). -/
theorem acceptFrame_ok {s : State} {f : Frame} (h : checksum f = frameByte f 4) :
    s.acceptFrame f =
      { { s with frame := f, csumCalc := checksum f }.endAttempt .ok with
        hum := humidity f, temp := temperature f } := if_pos h

/-- A frame whose checksum differs is kept without values (42_frame_decoder.md R160). -/
theorem acceptFrame_mismatch {s : State} {f : Frame} (h : checksum f ≠ frameByte f 4) :
    s.acceptFrame f = { s with frame := f, csumCalc := checksum f }.raiseChecksumMismatch := if_neg h

/-- The search finds an out-of-zone pulse and none below it. -/
theorem firstInvalid_some {p : PulseFile} {i : Nat} (h : firstInvalid p = some i) :
    ∃ hi : i < 40, classify p[i] = .invalid ∧ ∀ (j : Nat) (hj : j < i), classify (p[j]'(by omega)) ≠ .invalid := by
  rw [firstInvalid, List.findIdx?_eq_some_iff_getElem] at h
  obtain ⟨hi, hbad, hmin⟩ := h
  rw [Vector.length_toList] at hi
  refine ⟨hi, by simpa using hbad, fun j hj => ?_⟩
  simpa using hmin j hj

/-- Where the search finds nothing every pulse lies in a bit zone. -/
theorem firstInvalid_none {p : PulseFile} (h : firstInvalid p = none) (i : Nat) (hi : i < 40) :
    classify p[i] ≠ .invalid := by
  rw [firstInvalid, List.findIdx?_eq_none_iff] at h
  have := h p[i] (by simp)
  simpa using this

/-- The search finds nothing exactly when every pulse lies in a bit zone. -/
theorem firstInvalid_eq_none_iff {p : PulseFile} :
    firstInvalid p = none ↔ ∀ (i : Nat) (h : i < 40), classify p[i] ≠ .invalid := by
  refine ⟨firstInvalid_none, fun hall => ?_⟩
  cases hf : firstInvalid p with
  | none => rfl
  | some i =>
    obtain ⟨hi, hbad, -⟩ := firstInvalid_some hf
    exact absurd hbad (hall i hi)

/-- The search answers the index that is out of zone and lowest. -/
theorem firstInvalid_eq_some {p : PulseFile} {i : Nat} (hi : i < 40) (hbad : classify p[i] = .invalid)
    (hmin : ∀ (j : Nat) (hj : j < i), classify (p[j]'(by omega)) ≠ .invalid) : firstInvalid p = some i := by
  cases hf : firstInvalid p with
  | none => exact absurd hbad (firstInvalid_none hf i hi)
  | some k =>
    obtain ⟨hk, hkbad, hkmin⟩ := firstInvalid_some hf
    rcases Nat.lt_trichotomy i k with h | h | h
    · exact absurd hbad (hkmin i h)
    · rw [h]
    · exact absurd hkbad (hmin k h)

/-- A listed tick runs the rule of the current phase with the listed levels. -/
theorem step_tick {s : State} {levels : LineLevels} {rest : List Input} (h : s.inputs = .tick levels :: rest) :
    step s = exec (decodePhase s.phase) { s with inputs := rest, lineIn := levels } := by
  simp [step, State.fetch, h, State.fetchTick]

/-- Where no input is listed a tick falls with a free draw of the levels. -/
theorem step_draw {s : State} (h : s.inputs = []) :
    step s = exec (decodePhase s.phase) { s with lineIn := Config.freeLineIn s.draws, draws := s.draws + 1 } := by
  simp [step, State.fetch, h, State.fetchTick]

/-- A listed host access runs the operation its transaction selects. -/
theorem step_host {s : State} {t : Transaction} {rest : List Input} (h : s.inputs = .host t :: rest) :
    step s = exec (decodeTransaction t) { s with inputs := rest } := by
  simp [step, State.fetch, h]

/-- A listed reset cycle. -/
theorem step_reset {s : State} {access : Option Transaction} {rest : List Input}
    (h : s.inputs = .reset access :: rest) :
    step s = .next ({ s with inputs := rest }.resetStep.accessInReset access) := by
  simp [step, State.fetch, h]

/-- An access in a reset cycle changes nothing but the host's answer. -/
theorem accessInReset_eq (s : State) (access : Option Transaction) :
    ∃ v, s.accessInReset access = { s with rdata := v } := by
  cases access with
  | none => exact ⟨s.rdata, rfl⟩
  | some t =>
    by_cases h : t.we
    · exact ⟨s.rdata, by simp [State.accessInReset, h]⟩
    · exact ⟨s.readReg t.wordIdx, by simp [State.accessInReset, h]⟩

/-- Everything one step can be: a reset cycle, a host access, or a tick with some levels. -/
theorem step_cases {s t : State} (h : step s = .next t) :
    (∃ access rest, s.inputs = .reset access :: rest ∧
      t = { s with inputs := rest }.resetStep.accessInReset access) ∨
    (∃ tr rest, s.inputs = .host tr :: rest ∧ exec (decodeTransaction tr) { s with inputs := rest } = .next t) ∨
    (∃ levels d, exec (decodePhase s.phase) { s with inputs := s.inputs.tail, lineIn := levels, draws := d } = .next t) := by
  cases hin : s.inputs with
  | nil =>
    rw [step_draw hin] at h
    exact .inr (.inr ⟨_, _, by simpa [hin] using h⟩)
  | cons i rest =>
    cases i with
    | tick levels =>
      rw [step_tick hin] at h
      exact .inr (.inr ⟨levels, s.draws, by simpa [hin] using h⟩)
    | host tr =>
      rw [step_host hin] at h
      exact .inr (.inl ⟨tr, rest, rfl, h⟩)
    | reset access =>
      rw [step_reset hin] at h
      exact .inl ⟨access, rest, rfl, (Host.Outcome.next.inj h).symm⟩

end Sys2Proof.Machine
end

