-- ==== Sys2Proof/Laws/PerInstr.lean ====
section
/-! SUPPORT. The per-instruction law: the encoder writes each instruction's word into its own row of spec/opcode_table.json and into no row tried before it. -/

namespace Sys2Proof.Laws.TableRow

/-- A row of spec/opcode_table.json in one of its two formats. -/
inductive Row where
  /-- `bus_transaction_41` with its mask and match. -/
  | bus (mask pattern : BitVec 41)
  /-- `fsm_phase_4` with its mask and match. -/
  | phase (mask pattern : BitVec 4)

/-- A word lies in a row when it has the row's format and, under the row's mask, the row's match. -/
def Row.holds : Row → InstrWord → Prop
  | .bus mask pattern, .bus t => t &&& mask = pattern
  | .phase mask pattern, .phase c => c &&& mask = pattern
  | .bus _ _, .phase _ => False
  | .phase _ _, .bus _ => False

/-- The row of an instruction, copied from spec/opcode_table.json. -/
def rowOf : Instr → Row
  | .start _ => .bus 0x1FC00000001 0x10000000001
  | .setline _ => .bus 0x1FC00000001 0x10000000000
  | .wrIgn _ _ => .bus 0x10000000000 0x10000000000
  | .rd _ => .bus 0x10000000000 0x00000000000
  | .phaseIdle => .phase 0xF 0x0
  | .phaseStartLow => .phase 0xF 0x1
  | .phaseRelease => .phase 0xF 0x2
  | .phaseRespLow => .phase 0xF 0x3
  | .phaseRespHigh => .phase 0xF 0x4
  | .phaseRespEnd => .phase 0xF 0x5
  | .phaseBitLow => .phase 0xF 0x6
  | .phaseBitHigh => .phase 0xF 0x7
  | .phaseDecode => .phase 0xF 0x8
  | .phaseReserved _ => .phase 0x8 0x8

/-- The rows whose words the row of an instruction also matches and that are tried before it
(30_encoding.md R81; the note of PHASE_RESERVED in spec/opcode_table.json). -/
def earlier : Instr → List Row
  | .wrIgn _ _ => [.bus 0x1FC00000001 0x10000000001, .bus 0x1FC00000001 0x10000000000]
  | .phaseReserved _ => [.phase 0xF 0x8]
  | .start _ | .setline _ | .rd _ | .phaseIdle | .phaseStartLow | .phaseRelease | .phaseRespLow
  | .phaseRespHigh | .phaseRespEnd | .phaseBitLow | .phaseBitHigh | .phaseDecode => []

/-- The word of a well-formed instruction lies in the instruction's row and in none tried before it. -/
def Statement (i : Instr) : Prop :=
  i.wf = true → (rowOf i).holds (encode i) ∧ ∀ r ∈ earlier i, ¬ r.holds (encode i)

/-- Bits 40 and 39 to 34 of a transaction, read off its parts. -/
theorem mk_getLsbD (we : Bool) (addr : BitVec 8) (wdata : Word) (k : Nat) :
    (Transaction.mk we addr wdata).getLsbD k =
      if k < 32 then wdata.getLsbD k else if k < 40 then addr.getLsbD (k - 32) else (k == 40 && we) := by
  rw [Transaction.mk, BitVec.getLsbD_append]
  split
  · rfl
  · rw [BitVec.getLsbD_append]
    split
    · rw [if_pos (by omega)]
    · rw [if_neg (by omega)]
      rw [BitVec.getLsbD_ofBool]
      congr 1
      rw [Bool.eq_iff_iff]
      simp
      omega

theorem start (line : LineIdx) : Statement (.start line) := by
  intro _
  refine ⟨?_, by simp [earlier]⟩
  revert line; unfold Row.holds rowOf encode; decide +kernel

theorem setline (line : LineIdx) : Statement (.setline line) := by
  intro _
  refine ⟨?_, by simp [earlier]⟩
  revert line; unfold Row.holds rowOf encode; decide +kernel

theorem rd (a : WordIdx) : Statement (.rd a) := by
  intro _
  refine ⟨?_, by simp [earlier]⟩
  revert a; unfold Row.holds rowOf encode; decide +kernel

/-- A word in a row agrees with the row's match on every bit of the row's mask. -/
theorem bit_of_holds {mask pattern t : BitVec 41} (h : t &&& mask = pattern) (k : Nat)
    (hk : mask.getLsbD k = true) : t.getLsbD k = pattern.getLsbD k := by
  rw [← h, BitVec.getLsbD_and, hk, Bool.and_true]

/-- Bits 34 to 39 of a transaction to word index `a` are the bits of `a`. -/
theorem mk_wordAddr_getLsbD (we : Bool) (a : WordIdx) (wdata : Word) (j : Nat) (hj : j < 6) :
    (Transaction.mk we (wordAddr a) wdata).getLsbD (34 + j) = a.getLsbD j := by
  rw [mk_getLsbD, if_neg (by omega), if_pos (by omega), wordAddr, BitVec.getLsbD_append, if_neg (by omega)]
  congr 1
  omega

/-- A write outside CTRL lies in no row of a CTRL write. -/
theorem wrIgn_not_ctrl {a : WordIdx} {wdata : Word} (ha : a ≠ 0) {pattern : BitVec 41}
    (hp : ∀ j < 6, pattern.getLsbD (34 + j) = false) :
    Transaction.mk true (wordAddr a) wdata &&& 0x1FC00000001 ≠ pattern := by
  intro h
  refine ha (BitVec.eq_of_getLsbD_eq fun j hj => ?_)
  have hm : ∀ j < 6, (0x1FC00000001 : BitVec 41).getLsbD (34 + j) = true := by decide
  rw [← mk_wordAddr_getLsbD true a wdata j hj, bit_of_holds h _ (hm j hj), hp j hj]
  simp

theorem wrIgn (a : WordIdx) (wdata : Word) : Statement (.wrIgn a wdata) := by
  intro hwf
  have ha : a ≠ 0 := by simpa [Instr.wf] using hwf
  refine ⟨?_, ?_⟩
  · refine BitVec.eq_of_getLsbD_eq fun k hk => ?_
    rw [BitVec.getLsbD_and, mk_getLsbD]
    by_cases h40 : k = 40
    · subst h40; simp
    · have hm : ∀ k < 40, (0x10000000000 : BitVec 41).getLsbD k = false := by decide
      rw [hm k (by omega), Bool.and_false]
  · intro r hr
    rcases List.mem_cons.mp hr with rfl | hr
    · exact wrIgn_not_ctrl ha (by decide)
    · rcases List.mem_singleton.mp hr with rfl
      exact wrIgn_not_ctrl ha (by decide)

theorem phaseIdle : Statement .phaseIdle := fun _ => ⟨rfl, by simp [earlier]⟩
theorem phaseStartLow : Statement .phaseStartLow := fun _ => ⟨rfl, by simp [earlier]⟩
theorem phaseRelease : Statement .phaseRelease := fun _ => ⟨rfl, by simp [earlier]⟩
theorem phaseRespLow : Statement .phaseRespLow := fun _ => ⟨rfl, by simp [earlier]⟩
theorem phaseRespHigh : Statement .phaseRespHigh := fun _ => ⟨rfl, by simp [earlier]⟩
theorem phaseRespEnd : Statement .phaseRespEnd := fun _ => ⟨rfl, by simp [earlier]⟩
theorem phaseBitLow : Statement .phaseBitLow := fun _ => ⟨rfl, by simp [earlier]⟩
theorem phaseBitHigh : Statement .phaseBitHigh := fun _ => ⟨rfl, by simp [earlier]⟩
theorem phaseDecode : Statement .phaseDecode := fun _ => ⟨rfl, by simp [earlier]⟩

theorem phaseReserved (code : PhaseCode) : Statement (.phaseReserved code) := by
  unfold Statement Row.holds rowOf earlier encode Instr.wf
  revert code
  simp only [List.mem_singleton, forall_eq]
  decide +kernel

end Sys2Proof.Laws.TableRow
end

