-- ==== Sys2Proof/Laws/Registers.lean ====
section
/-! SUPPORT. What a read shows: the register of each word index, and the bits of the packed words. -/

namespace Sys2Proof.Machine

@[simp] theorem readReg_ctrl (s : State) : s.readReg 0#6 = s.ctrlWord := rfl
@[simp] theorem readReg_status (s : State) : s.readReg 1#6 = s.statusWord := rfl
@[simp] theorem readReg_diag (s : State) : s.readReg 2#6 = s.diagWord := rfl
@[simp] theorem readReg_frameW0 (s : State) : s.readReg 3#6 = s.frame.extractLsb' 8 32 := rfl
@[simp] theorem readReg_frameW1 (s : State) : s.readReg 4#6 = (s.frame.extractLsb' 0 8).setWidth 32 := rfl
@[simp] theorem readReg_humidity (s : State) : s.readReg 5#6 = s.hum.setWidth 32 := rfl
@[simp] theorem readReg_temperature (s : State) : s.readReg 6#6 = s.temp.signExtend 32 := rfl
@[simp] theorem readReg_now (s : State) : s.readReg 7#6 = s.now := rfl

/-- From word index 8 on a read shows the pulse file or a reserved word. -/
theorem readReg_of_ge {s : State} {a : WordIdx} (h : 8 ≤ a.toNat) :
    s.readReg a =
      if h : 16 ≤ a.toNat ∧ a.toNat < 26 then s.pulseWord (a.toNat - 16) (by omega) else 0 := by
  have ne : ∀ b : WordIdx, b.toNat < 8 → a ≠ b := fun b hb e => by rw [e] at h; omega
  rw [State.readReg, if_neg (ne 0 (by decide)), if_neg (ne 1 (by decide)), if_neg (ne 2 (by decide)),
    if_neg (ne 3 (by decide)), if_neg (ne 4 (by decide)), if_neg (ne 5 (by decide)), if_neg (ne 6 (by decide)),
    if_neg (ne 7 (by decide))]

/-- The reserved offsets read zero (10_state.md R37). -/
theorem readReg_reserved {s : State} {a : WordIdx} (h : 8 ≤ a.toNat) (hr : a.toNat < 16 ∨ 26 ≤ a.toNat) :
    s.readReg a = 0 := by
  rw [readReg_of_ge h, dif_neg (by omega)]

/-- PULSE_Wk at its word index (10_state.md R41). -/
theorem readReg_pulse {s : State} {a : WordIdx} {k : Nat} (hk : k < 10) (h : a.toNat = 16 + k) :
    s.readReg a = s.pulseWord k hk := by
  rw [readReg_of_ge (by omega), dif_pos (by omega)]
  congr 1
  omega

/-- VALID in terms of the outcome's name. -/
theorem valid_eq (s : State) : s.valid = (s.done && s.outcome == .ok) := by
  cases h : s.outcome <;> simp [State.valid, h, ReadOutcome.code]

/-- The bits of CTRL (10_state.md R30). -/
theorem ctrlWord_getLsbD (s : State) (k : Nat) :
    s.ctrlWord.getLsbD k = (decide (8 ≤ k ∧ k < 16) && s.line.getLsbD (k - 8)) := by
  rw [State.ctrlWord, BitVec.getLsbD_append]
  simp only [BitVec.getLsbD_append, BitVec.getLsbD_zero]
  rcases Nat.lt_or_ge k 8 with h | h
  · split_ifs <;> simp <;> omega
  · rcases Nat.lt_or_ge k 16 with h' | h'
    · rw [if_neg (by omega), if_neg (by omega), if_pos (by omega)]
      simp [h, h', Nat.sub_sub]
    · rw [if_neg (by omega), if_neg (by omega), if_neg (by omega)]
      simp; omega

/-- The bits of STATUS (10_state.md R31). -/
theorem statusWord_getLsbD (s : State) (k : Nat) :
    s.statusWord.getLsbD k =
      if k < 1 then s.busy else if k < 2 then s.done else if k < 4 then s.outcome.code.getLsbD (k - 2)
      else if k < 5 then s.cmderr else if k < 6 then s.valid
      else if 8 ≤ k ∧ k < 12 then s.phase.getLsbD (k - 8)
      else if 16 ≤ k ∧ k < 22 then s.bitidx.getLsbD (k - 16) else false := by
  have one : ∀ (b : Bool) (j : Nat), (BitVec.ofBool b).getLsbD j = (decide (j = 0) && b) := by simp
  rw [State.statusWord, BitVec.getLsbD_append]
  simp only [BitVec.getLsbD_append, BitVec.getLsbD_zero, one]
  by_cases h : k < 22
  · interval_cases k <;> simp
  · simp only [show ¬ k < 1 by omega, show ¬ k - 1 < 1 by omega, show ¬ k - 1 - 1 < 2 by omega,
      show ¬ k - 1 - 1 - 2 < 1 by omega, show ¬ k - 1 - 1 - 2 - 1 < 1 by omega,
      show ¬ k - 1 - 1 - 2 - 1 - 1 < 2 by omega, show ¬ k - 1 - 1 - 2 - 1 - 1 - 2 < 4 by omega,
      show ¬ k - 1 - 1 - 2 - 1 - 1 - 2 - 4 < 4 by omega, show ¬ k - 1 - 1 - 2 - 1 - 1 - 2 - 4 - 4 < 6 by omega,
      show ¬ k < 2 by omega, show ¬ k < 4 by omega, show ¬ k < 5 by omega, show ¬ k < 6 by omega,
      show ¬ k < 12 by omega, h, if_false, and_false]

/-- The bits of DIAG (10_state.md R32). -/
theorem diagWord_getLsbD (s : State) (k : Nat) :
    s.diagWord.getLsbD k =
      if k < 6 then s.failbit.getLsbD k else if 8 ≤ k ∧ k < 12 then s.failphase.getLsbD (k - 8)
      else if 16 ≤ k ∧ k < 24 then s.csumCalc.getLsbD (k - 16) else false := by
  rw [State.diagWord, BitVec.getLsbD_append]
  simp only [BitVec.getLsbD_append, BitVec.getLsbD_zero]
  by_cases h : k < 24
  · interval_cases k <;> simp
  · simp only [show ¬ k < 6 by omega, show ¬ k - 6 < 2 by omega, show ¬ k - 6 - 2 < 4 by omega,
      show ¬ k - 6 - 2 - 4 < 4 by omega, show ¬ k - 6 - 2 - 4 - 4 < 8 by omega, show ¬ k < 12 by omega, h,
      if_false, and_false]

end Sys2Proof.Machine
end

