-- ==== Sys2Proof/Laws/Ticks.lean ====
section
/-! SUPPORT. What each tick can do, said once per phase, and the arithmetic of the time since a phase was entered. -/

namespace Sys2Proof.Machine

/-- The legal phase codes, one by one. -/
theorem phaseCode_cases {c : PhaseCode} (h : c.toNat ≤ 8) :
    c = Phase.idle ∨ c = Phase.startLow ∨ c = Phase.release ∨ c = Phase.respLow ∨ c = Phase.respHigh ∨
    c = Phase.respEnd ∨ c = Phase.bitLow ∨ c = Phase.bitHigh ∨ c = Phase.decode := by
  revert c
  decide

/-- `e` is one more than the time since entry, modulo 2^32 (41_pulse_sampler.md R120). -/
theorem elapsed_toNat (s : State) : s.elapsed.toNat = (s.sinceEntry + 1) % 2 ^ 32 := by
  have e : s.now + 1 - s.t0 = (s.now - s.t0) + 1 := by
    rw [BitVec.sub_eq_add_neg, BitVec.sub_eq_add_neg, BitVec.add_assoc, BitVec.add_comm 1, ← BitVec.add_assoc]
  rw [State.elapsed, e, BitVec.toNat_add, State.sinceEntry]
  rfl

/-- A phase just entered has lasted no time. -/
@[simp] theorem sinceEntry_enterPhase (s : State) (p : PhaseCode) : (s.enterPhase p).sinceEntry = 0 := by
  simp [State.sinceEntry]

/-- A phase that goes on has lasted `e`. -/
theorem sinceEntry_advanceNow (s : State) : s.advanceNow.sinceEntry = s.elapsed.toNat := rfl

theorem exec_phaseIdle {s t : State} (h : exec (decodePhase Phase.idle) s = .next t) : t = s.advanceNow :=
  (Host.Outcome.next.inj h).symm

theorem exec_phaseStartLow_cases {s t : State} (h : exec (decodePhase Phase.startLow) s = .next t) :
    (Config.params.startLowUs ≤ s.elapsed.toNat ∧ t = s.advanceNow.enterPhase Phase.release) ∨
    (s.elapsed.toNat < Config.params.startLowUs ∧ t = s.advanceNow) := by
  have h' : t = s.timedPhase Config.params.startLowUs Phase.release := (Host.Outcome.next.inj h).symm
  rcases Nat.lt_or_ge s.elapsed.toNat Config.params.startLowUs with hb | hb
  · exact .inr ⟨hb, h'.trans (timedPhase_stay hb)⟩
  · exact .inl ⟨hb, h'.trans (timedPhase_end hb)⟩

theorem exec_phaseRelease_cases {s t : State} (h : exec (decodePhase Phase.release) s = .next t) :
    (Config.params.releaseUs ≤ s.elapsed.toNat ∧ t = s.advanceNow.enterPhase Phase.respLow) ∨
    (s.elapsed.toNat < Config.params.releaseUs ∧ t = s.advanceNow) := by
  have h' : t = s.timedPhase Config.params.releaseUs Phase.respLow := (Host.Outcome.next.inj h).symm
  rcases Nat.lt_or_ge s.elapsed.toNat Config.params.releaseUs with hb | hb
  · exact .inr ⟨hb, h'.trans (timedPhase_stay hb)⟩
  · exact .inl ⟨hb, h'.trans (timedPhase_end hb)⟩

/-- What a tick of a wait phase can do when seeing the level means the state change `move`. -/
def WaitCases (s t : State) (p : PhaseCode) (lvl : Bool) (move : State → State → Prop) : Prop :=
  (Config.params.timeoutUs < s.elapsed.toNat ∧ t = s.advanceNow.raiseTimeout p) ∨
  (s.elapsed.toNat ≤ Config.params.timeoutUs ∧ s.sample = lvl ∧ move s.advanceNow t) ∨
  (s.elapsed.toNat ≤ Config.params.timeoutUs ∧ s.sample ≠ lvl ∧ t = s.advanceNow)

/-- A wait phase whose advance always goes on. -/
theorem waitCases_of {s t : State} {p : PhaseCode} {lvl : Bool} {f : State → State}
    (h : (s.waitPhase p lvl fun u => .next (f u)) = .next t) : WaitCases s t p lvl fun u v => v = f u := by
  obtain h | ⟨he, hv, h⟩ | h := waitPhase_cases h
  · exact .inl h
  · exact .inr (.inl ⟨he, hv, (Host.Outcome.next.inj h).symm⟩)
  · exact .inr (.inr h)

theorem exec_phaseRespLow_cases {s t : State} (h : exec (decodePhase Phase.respLow) s = .next t) :
    WaitCases s t Phase.respLow false fun u v => v = u.enterPhase Phase.respHigh :=
  waitCases_of (f := fun u => u.enterPhase Phase.respHigh) h

theorem exec_phaseRespHigh_cases {s t : State} (h : exec (decodePhase Phase.respHigh) s = .next t) :
    WaitCases s t Phase.respHigh true fun u v => v = u.enterPhase Phase.respEnd :=
  waitCases_of (f := fun u => u.enterPhase Phase.respEnd) h

theorem exec_phaseRespEnd_cases {s t : State} (h : exec (decodePhase Phase.respEnd) s = .next t) :
    WaitCases s t Phase.respEnd false fun u v => v = { u.enterPhase Phase.bitLow with bitidx := 0 } :=
  waitCases_of (f := fun u => { u.enterPhase Phase.bitLow with bitidx := 0 }) h

theorem exec_phaseBitLow_cases {s t : State} (h : exec (decodePhase Phase.bitLow) s = .next t) :
    WaitCases s t Phase.bitLow true fun u v => v = u.enterPhase Phase.bitHigh :=
  waitCases_of (f := fun u => u.enterPhase Phase.bitHigh) h

theorem exec_phaseBitHigh_cases {s t : State} (h : exec (decodePhase Phase.bitHigh) s = .next t) :
    WaitCases s t Phase.bitHigh false fun u v => ∃ hb : s.bitidx.toNat < 40,
      v = { u with pulse := s.pulse.set s.bitidx.toNat (s.elapsed.extractLsb' 0 8) hb,
                   bitidx := s.bitidx + 1 }.enterPhase
        (if s.bitidx.toNat + 1 = Config.params.nbits then Phase.decode else Phase.bitLow) := by
  have h' : (s.waitPhase Phase.bitHigh false fun u => u.capturePulse (s.elapsed.extractLsb' 0 8)) = .next t := h
  obtain h' | ⟨he, hv, h'⟩ | h' := waitPhase_cases h'
  · exact .inl h'
  · exact .inr (.inl ⟨he, hv, capturePulse_cases h'⟩)
  · exact .inr (.inr h')

theorem exec_phaseDecode_cases {s t : State} (h : exec (decodePhase Phase.decode) s = .next t) :
    (∃ i, firstInvalid s.pulse = some i ∧ t = s.advanceNow.raiseInvalidPulseWidth i) ∨
    (firstInvalid s.pulse = none ∧ t = s.advanceNow.acceptFrame (pack s.pulse)) := by
  have h' : execPhaseDecode s = .next t := h
  rw [execPhaseDecode] at h'
  cases hf : firstInvalid s.pulse with
  | some i =>
    rw [hf] at h'
    exact .inl ⟨i, rfl, (Host.Outcome.next.inj h').symm⟩
  | none =>
    rw [hf] at h'
    exact .inr ⟨rfl, (Host.Outcome.next.inj h').symm⟩

/-- A phase code is never a bus operation. -/
theorem decodePhase_isBus (c : PhaseCode) : (decodePhase c).isBus = false := by
  revert c
  decide +kernel

/-- A transaction always is one. -/
theorem decodeTransaction_isBus (t : Transaction) : (decodeTransaction t).isBus = true := by
  rw [decodeTransaction]
  split_ifs <;> rfl

end Sys2Proof.Machine
end

