-- ==== Sys2Proof/Tests/Slice0.lean ====
section
/-! SUPPORT. Tests: ill-formed instructions, words written out from the encodings, one step per instruction with its expected result from 95_test_vectors.md or the rules' own examples, and a witness for the hypotheses of each statement. -/

namespace Sys2Proof.Tests

open Sys2Proof.Machine

set_option Elab.async false

/-! ### Well-formedness and configuration -/

/-- 30_encoding.md R81 row 3: a write to CTRL is no WR_IGN. -/
theorem test_wf_wrIgn_refuses_ctrl : (Instr.wrIgn 0 5).wf = false := by decide
/-- 30_encoding.md R84: 8 is DECODE, the reserved codes begin at 9. -/
theorem test_wf_phaseReserved_refuses_decode : (Instr.phaseReserved 8).wf = false := by decide
theorem test_wf_phaseReserved_refuses_idle : (Instr.phaseReserved 0).wf = false := by decide
/-- The edges that the checks let through. -/
theorem test_wf_edges : (Instr.wrIgn 1 5).wf = true ∧ (Instr.wrIgn 63 0).wf = true ∧
    (Instr.phaseReserved 9).wf = true ∧ (Instr.phaseReserved 15).wf = true := by decide
/-- 00_scope.md R7: "With the values of rule R6 these hold". -/
theorem test_params_ok : Config.params.Ok := by decide
/-- The bounds as the spec computes them: 00_scope.md R15 and 70_reset_and_hazards.md R253. -/
theorem test_attempt_bounds : maxAttemptTicks = 10302 ∧ minAttemptTicks = 2085 := by decide

/-! ### Decoding (words of 95_test_vectors.md V-HOST-1 to V-HOST-5 and 30_encoding.md R84, R93) -/

theorem test_decode_start : decodeTransaction 0x10000000001 = .start 0 := by decide
theorem test_decode_start_line3 : decodeTransaction 0x10000000301 = .start 3 := by decide
theorem test_decode_start_addr_low_bits_ignored : decodeTransaction 0x10300000001 = .start 0 := by decide
theorem test_decode_start_line_ff : decodeTransaction 0x1000000FF01 = .start 0xFF := by decide
theorem test_decode_setline : decodeTransaction 0x10000000000 = .setline 0 := by decide
theorem test_decode_setline_reserved_bits_ignored : decodeTransaction 0x100FFFF00FE = .setline 0 := by decide
theorem test_decode_setline_line3 : decodeTransaction 0x10000000300 = .setline 3 := by decide
theorem test_decode_wrIgn : decodeTransaction 0x10400000001 = .wrIgn 1 1 := by decide
theorem test_decode_wrIgn_top : decodeTransaction 0x1FCFFFFFFFF = .wrIgn 63 0xFFFFFFFF := by decide
theorem test_decode_rd_wdata_ignored : decodeTransaction 0x0000000FFFF = .rd 0 := by decide
theorem test_decode_rd_status : decodeTransaction 0x00400000000 = .rd 1 := by decide
theorem test_decode_rd_addr_low_bits_ignored : decodeTransaction 0x00700000000 = .rd 1 := by decide
theorem test_decode_rd_pulse_w9 : decodeTransaction 0x06400000000 = .rd 25 := by decide
theorem test_decode_phaseIdle : decodeTableWord 8 0b0000 = some .phaseIdle := by decide
theorem test_decode_phaseStartLow : decodeTableWord 8 0b0001 = some .phaseStartLow := by decide
theorem test_decode_phaseRelease : decodeTableWord 8 0b0010 = some .phaseRelease := by decide
theorem test_decode_phaseRespLow : decodeTableWord 8 0b0011 = some .phaseRespLow := by decide
theorem test_decode_phaseRespHigh : decodeTableWord 8 0b0100 = some .phaseRespHigh := by decide
theorem test_decode_phaseRespEnd : decodeTableWord 8 0b0101 = some .phaseRespEnd := by decide
theorem test_decode_phaseBitLow : decodeTableWord 8 0b0110 = some .phaseBitLow := by decide
theorem test_decode_phaseBitHigh : decodeTableWord 8 0b0111 = some .phaseBitHigh := by decide
theorem test_decode_phaseDecode : decodeTableWord 8 0b1000 = some .phaseDecode := by decide
theorem test_decode_phaseReserved : decodeTableWord 8 0b1001 = some (.phaseReserved 9) := by decide
/-- Bits above a word are refused, not dropped. -/
theorem test_decode_refuses_set_bits_above_the_word :
    decodeTableWord 8 0x13 = none ∧ decodeTableWord 48 0x20000000000 = none := by decide
/-- A transaction through the table's numbering: `RD PULSE_W9` in whole bytes. -/
theorem test_decode_table_word_of_transaction : decodeTableWord 48 0x06400000000 = some (.rd 25) := by decide

/-! ### Small states -/

/-- Right after an accepted `START 0` from reset (95_test_vectors.md V-HOST-2). -/
def busyState : State := State.reset.beginAttempt 0
/-- The same machine `e` ticks after it entered phase `p`, so that its next tick has `e + 1`. -/
def inPhase (p : PhaseCode) (e : Word) (b : BitVec 6) (levels : LineLevels) : State :=
  { busyState with phase := p, now := e, t0 := 0, bitidx := b, lineIn := levels }
/-- A state whose pulses are given, in DECODE. -/
def decodeState (p : PulseFile) : State := { busyState with phase := 8, bitidx := 40, now := 5686, pulse := p }
/-- One byte as eight pulses, most significant bit first, 25 us for a 0 and 70 us for a 1. -/
def bytePulses (b : Byte) : List Byte := (List.range 8).map fun j => if b.getLsbD (7 - j) then 70 else 25
/-- The pulse file of five bytes. -/
def framePulses (a b c d e : Byte) : PulseFile :=
  Vector.ofFn fun i => ((bytePulses a ++ bytePulses b ++ bytePulses c ++ bytePulses d ++ bytePulses e)[i.val]?).getD 0
/-- The pulses of 02 8C 00 C8 56, the frame of program P1. -/
def goodPulses : PulseFile := framePulses 0x02 0x8C 0x00 0xC8 0x56
/-- The end state of program P1. -/
def okState : State :=
  { State.reset with
    bitidx := 40, pulse := goodPulses, frame := 0x028C00C856, csumCalc := 0x56, hum := 652, temp := 200
    done := true, outcome := .ok, now := 5687, t0 := 5686 }
/-- The end state of program P2, with nothing on the line. -/
def timeoutState : State :=
  { State.reset with done := true, outcome := .timeout, failphase := 3, now := 2102, t0 := 2001 }
/-- The next state of an outcome, if it is one. -/
def nextOf : Host.Outcome State Fault Refusal → Option State
  | .next s => some s
  | .fault _ => none
  | .refused _ => none
theorem next_of_nextOf {o : Host.Outcome State Fault Refusal} {t : State} (h : nextOf o = some t) : o = .next t := by
  cases o <;> cases h
  rfl
/-- The answer a read of word index `a` gives after an outcome. -/
def shows (o : Host.Outcome State Fault Refusal) (a : WordIdx) : Option Word := (nextOf o).map fun s => s.readReg a

/-! ### Host operations -/

/-- V-HOST-2, and R101's example: the entry stamp is the current NOW and the line is driven low. -/
theorem test_start_accepted :
    (let o := exec (.start 0) State.reset
     shows o 1 = some 0x00000101 ∧ shows o 0 = some 0 ∧ shows o 2 = some 0x0000003F) ∧
    (nextOf (exec (.start 0) { State.reset with now := 0x1234 })).map
      (fun s => (s.t0, s.now, s.lineOe 0, s.lineOut 0)) = some (0x1234, 0x1234, true, false) := by decide +kernel
/-- V-HOST-3: STATUS goes from 0x00090601 to 0x00090611 and CTRL stays 0; V-HOST-4: LINE is stored, CMDERR set. -/
theorem test_start_rejected :
    (let o := exec (.start 2) (inPhase 6 0 9 0)
     (inPhase 6 0 9 0).readReg 1 = 0x00090601 ∧ shows o 1 = some 0x00090611 ∧ shows o 0 = some 0) ∧
    (let o := exec (.start 1) State.reset
     shows o 0 = some 0x00000100 ∧ shows o 1 = some 0x00000010 ∧ shows o 2 = some 0x0000003F) := by decide +kernel
/-- R104's example. -/
theorem test_setline_idle : shows (exec (.setline 3) State.reset) 0 = some 0x00000300 := by decide +kernel
/-- V-HOST-3: SETLINE while busy changes nothing. -/
theorem test_setline_busy : shows (exec (.setline 3) busyState) 0 = some 0 := by decide +kernel
/-- V-HOST-3: a write to NOW does not set it. -/
theorem test_wrIgn_now : shows (exec (.wrIgn 7 0) { State.reset with now := 0xBB8 }) 7 = some 0x00000BB8 := by
  decide +kernel
/-- V-HOST-1: RD DIAG after reset. -/
theorem test_rd_diag_after_reset :
    (nextOf (exec (.rd 2) State.reset)).map (fun s => s.rdata) = some 0x0000003F := by decide +kernel
/-- Program P1: STATUS, DIAG, the frame, the values, the pulse words at both ends and the reserved words. -/
theorem test_rd_after_p1 :
    okState.readReg 1 = 0x00280022 ∧ okState.readReg 2 = 0x0056003F ∧ okState.readReg 3 = 0x028C00C8 ∧
    okState.readReg 4 = 0x00000056 ∧ okState.readReg 5 = 0x0000028C ∧ okState.readReg 6 = 0x000000C8 ∧
    okState.readReg 7 = 0x00001637 ∧ okState.readReg 8 = 0 ∧ okState.readReg 15 = 0 ∧
    okState.readReg 16 = 0x19191919 ∧ okState.readReg 25 = 0x19464619 ∧ okState.readReg 26 = 0 ∧
    okState.readReg 63 = 0 := by decide +kernel

/-! ### Ticks -/

/-- V-SMP-7. -/
theorem test_idle_now_wraps :
    exec .phaseIdle { State.reset with now := 0xFFFFFFFF } = .next State.reset := by
  show Host.Outcome.next _ = _
  exact congrArg _ (by decide +kernel)
/-- V-HOST-2: tick 2000 makes PHASE = 2, tick 1999 does not. -/
theorem test_startLow_edge :
    (nextOf (exec .phaseStartLow (inPhase 1 1999 0 0))).map (fun s => (s.phase, s.t0)) = some (2, 2000) ∧
    (nextOf (exec .phaseStartLow (inPhase 1 1998 0 0))).map (fun s => (s.phase, s.t0)) = some (1, 0) := by decide +kernel
/-- V-HOST-2: tick 2001 makes PHASE = 3 and releases the line. -/
theorem test_release :
    (nextOf (exec .phaseRelease { busyState with phase := 2, now := 2000, t0 := 2000 })).map
      (fun s => (s.phase, s.t0, s.lineOe 0)) = some (3, 2001, false) := by decide +kernel
/-- V-SMP-1: a low first seen at e = 100 is accepted; at e = 101 the watchdog fires even if the line is low. -/
theorem test_respLow_edge :
    (nextOf (exec .phaseRespLow (inPhase 3 99 0 0))).map (fun s => s.phase) = some 4 ∧
    shows (exec .phaseRespLow (inPhase 3 100 0 0)) 1 = some 0x00000006 ∧
    shows (exec .phaseRespLow (inPhase 3 100 0 0)) 2 = some 0x0000033F := by decide +kernel
/-- V-SMP-1 for RESP_HIGH. -/
theorem test_respHigh_edge :
    (nextOf (exec .phaseRespHigh (inPhase 4 99 0 1))).map (fun s => s.phase) = some 5 ∧
    shows (exec .phaseRespHigh (inPhase 4 100 0 1)) 2 = some 0x0000043F := by decide +kernel
/-- V-SMP-1 for RESP_END. -/
theorem test_respEnd_edge :
    (nextOf (exec .phaseRespEnd (inPhase 5 99 0 0))).map (fun s => (s.phase, s.bitidx)) = some (6, 0) ∧
    shows (exec .phaseRespEnd (inPhase 5 100 0 0)) 2 = some 0x0000053F := by decide +kernel
/-- V-SMP-1 and V-SMP-3 for BIT_LOW: the bit whose low was too long shows in STATUS. -/
theorem test_bitLow_edge :
    (nextOf (exec .phaseBitLow (inPhase 6 99 17 1))).map (fun s => (s.phase, s.bitidx)) = some (7, 17) ∧
    shows (exec .phaseBitLow (inPhase 6 100 17 0)) 1 = some 0x00110006 ∧
    shows (exec .phaseBitLow (inPhase 6 100 17 0)) 2 = some 0x0000063F := by decide +kernel
/-- V-SMP-2: a high of 100 is recorded, one of 101 is a Timeout and is not. -/
theorem test_bitHigh_capture_limits :
    shows (exec .phaseBitHigh (inPhase 7 99 0 0)) 16 = some 0x64000000 ∧
    shows (exec .phaseBitHigh (inPhase 7 100 0 0)) 16 = some 0 ∧
    shows (exec .phaseBitHigh (inPhase 7 100 0 0)) 2 = some 0x0000073F := by decide +kernel
/-- R132: the 40th capture goes to DECODE with the bit index 40, the 39th to BIT_LOW. -/
theorem test_bitHigh_last_bit :
    (nextOf (exec .phaseBitHigh (inPhase 7 24 39 0))).map (fun s => (s.phase, s.bitidx, s.pulse[39])) = some (8, 40, 25) ∧
    (nextOf (exec .phaseBitHigh (inPhase 7 24 38 0))).map (fun s => (s.phase, s.bitidx, s.pulse[38])) = some (6, 39, 25) := by
  decide +kernel
/-- V-SRC-6: `t0` = 0xFFFFFFC0 and `n` = 0x00000024 give `e` = 100, which is in time. -/
theorem test_watchdog_across_the_wrap :
    (nextOf (exec .phaseRespHigh { inPhase 4 0x23 0 1 with t0 := 0xFFFFFFC0 })).map (fun s => s.phase) = some 5 := by
  decide +kernel
/-- Program P1: Ok. -/
theorem test_decode_ok :
    let o := exec .phaseDecode (decodeState goodPulses)
    shows o 1 = some 0x00280022 ∧ shows o 2 = some 0x0056003F ∧ shows o 3 = some 0x028C00C8 ∧
    shows o 4 = some 0x56 ∧ shows o 5 = some 0x28C ∧ shows o 6 = some 0xC8 ∧ shows o 7 = some 0x1637 := by decide +kernel
/-- V-E2E-1: byte4 = 0x94 gives ChecksumMismatch; V-DEC-2: of two out-of-zone pulses the lowest index is reported. -/
theorem test_decode_errors :
    (let o := exec .phaseDecode (decodeState (framePulses 0x02 0x8C 0x00 0xC8 0x94))
     shows o 1 = some 0x0028000E ∧ shows o 2 = some 0x0056003F ∧ shows o 3 = some 0x028C00C8 ∧
     shows o 4 = some 0x94 ∧ shows o 5 = some 0 ∧ shows o 6 = some 0) ∧
    (let o := exec .phaseDecode (decodeState ((goodPulses.set 5 50).set 30 10))
     shows o 1 = some 0x0028000A ∧ shows o 2 = some 0x00000005 ∧ shows o 3 = some 0) := by decide +kernel
/-- V-SRC-1. -/
theorem test_classify_boundaries :
    [14, 15, 39, 40, 59, 60, 89, 90].map (fun d => classify (BitVec.ofNat 8 d)) =
      [.invalid, .zero, .zero, .invalid, .invalid, .one, .one, .invalid] := by decide
/-- V-DEC-7: the raw values 0x0000, 0x8000, 0x8001, 0x8096, 0x7FFF, 0xFFFF. -/
theorem test_temperature_function :
    [0x0000, 0x8000, 0x8001, 0x8096, 0x7FFF, 0xFFFF].map (fun r => temperature (BitVec.ofNat 40 (r * 256))) =
      [0x0000, 0x0000, 0xFFFF, 0xFF6A, 0x7FFF, 0x8001] := by decide
/-- V-DEC-4: the sums of FF FF FF FF and 02 8C 80 65. -/
theorem test_checksum_wraps : checksum 0xFFFFFFFFFC = 0xFC ∧ checksum 0x028C806573 = 0x73 := by decide
/-- V-DEC-3: the first byte of the frame. -/
theorem test_pack_first_byte : frameByte (pack goodPulses) 0 = 0x02 ∧ pack goodPulses = 0x028C00C856 := by decide +kernel

/-! ### Reset, the step, the host's procedures -/

/-- V-RST-2: a reset in an attempt leaves DONE = 0 and every pulse 0; a read in the cycle shows the reset value. -/
theorem test_reset_during_attempt :
    (nextOf (step { inPhase 6 3000 9 0 with pulse := goodPulses, inputs := [.reset (some 0x00800000000)] })).map
      (fun s => (s.readReg 1, s.now, s.pulse[0], s.rdata)) = some (0, 0, 0, 0x3F) := by decide +kernel
/-- A placed phase word and a placed transaction are what the next step runs. -/
theorem test_fetch_word :
    (nextOf (step (State.reset.withFetchWord 8 3))).map (fun s => (s.phase, s.now)) = some (4, 1) ∧
    (nextOf (step (State.reset.withFetchWord 48 0x10000000001))).map (fun s => (s.phase, s.busy)) = some (1, true) := by
  decide +kernel
/-- R93: `START 3` and `RD PULSE_W9` as host lines give their worked encodings. -/
theorem test_host_lines :
    (HostAgent.initial.act (pseudoStart (cst 3))).2 = .access 0x10000000301 ∧
    (HostAgent.initial.act [rdInto (.pulseW 9) "w"]).2 = .access 0x06400000000 := by decide +kernel
/-- A configuration of pins 4 and 17 on two lines, read as `P = [1, 0]` (program P7). -/
def twoPins : HostParams :=
  { samplerBase := 0, pinToLine := [(17, 0), (4, 1)], powerupSettleUs := 0, minRereadUs := 0, pins := [4, 17] }
/-- R196: the default of `maxAttempts` is 2, and the order of the pins is the order of the lines. -/
theorem test_host_config :
    twoPins.Ok 2 ∧ twoPins.maxAttempts = 2 ∧ twoPins.lines = some [1, 0] ∧
    twoPins.batchProgram 2 = some (batchProgram [1, 0] 2) := by decide +kernel
/-- R196: no attempt allowed, a pin 0, a pin without a line, a line that the sampler does not have. -/
theorem test_host_config_refuses :
    ¬ { twoPins with maxAttempts := 0 }.Ok 2 ∧ ¬ { twoPins with pins := [0], pinToLine := [(0, 0)] }.Ok 2 ∧
    ¬ { twoPins with pins := [5] }.Ok 2 ∧ ¬ twoPins.Ok 1 := by decide +kernel
/-- V-SRC-5: fails twice then succeeds with 3 attempts: 2 delays; always times out with 2: Timeout and 1 delay. -/
theorem test_retry_policy :
    retry 3 (fun k => if k < 2 then .timeout else .ok) = { outcome := .ok, attempts := 3, delays := 2 } ∧
    retry 2 (fun _ => .timeout) = { outcome := .timeout, attempts := 2, delays := 1 } := by decide +kernel

/-! ### Witnesses: the hypotheses of each statement are met together -/

theorem test_witness_start_accepted : State.reset.busy = false ∧ (0 : LineIdx).toNat < State.reset.numLines := by decide
theorem test_witness_start_accepted_line_255 :
    okState.busy = false ∧ (255 : LineIdx).toNat < { okState with numLines := 256 }.numLines := by decide
theorem test_witness_start_busy : busyState.busy = true := by decide
theorem test_witness_start_out_of_range :
    State.reset.busy = false ∧ State.reset.numLines ≤ (1 : LineIdx).toNat ∧ State.reset.phase = 0 := by decide
theorem test_witness_setline :
    (okState.busy = false ∧ okState.phase = 0) ∧ busyState.busy = true := by decide
theorem test_witness_rd_clauses :
    (8 ≤ (8 : WordIdx).toNat ∧ (8 : WordIdx).toNat ≤ 15) ∧ (8 ≤ (15 : WordIdx).toNat ∧ (15 : WordIdx).toNat ≤ 15) ∧
    (16 : WordIdx).toNat = 16 + 0 ∧ (25 : WordIdx).toNat = 16 + 9 ∧ 26 ≤ (26 : WordIdx).toNat ∧
    26 ≤ (63 : WordIdx).toNat := by decide
theorem test_witness_host_undisturbed : (Instr.start 2).isBus = true ∧ busyState.busy = true := by decide
theorem test_witness_host_frame :
    (Instr.start 0).isBus = true ∧ ∃ t, exec (.start 0) State.reset = .next t := ⟨rfl, _, rfl⟩
theorem test_witness_host_frame_rd :
    (Instr.rd 1).isBus = true ∧ (∃ t, exec (.rd 1) okState = .next t) ∧ ∀ l, Instr.rd 1 ≠ .start l :=
  ⟨rfl, ⟨_, rfl⟩, fun _ => by simp⟩
theorem test_witness_encode : (Instr.wrIgn 63 0xFFFFFFFF).wf = true ∧ (Instr.phaseReserved 15).wf = true := by decide
theorem test_witness_transaction_rows :
    (0x10300000101 : Transaction) &&& 0x1FC00000001 = 0x10000000001 ∧
    (0x10300000100 : Transaction) &&& 0x1FC00000001 = 0x10000000000 ∧
    ((0x10400000001 : Transaction) &&& 0x10000000000 = 0x10000000000 ∧
      (0x10400000001 : Transaction) &&& 0x1FC00000001 ≠ 0x10000000001 ∧
      (0x10400000001 : Transaction) &&& 0x1FC00000001 ≠ 0x10000000000) ∧
    (0x0FFFFFFFFFF : Transaction) &&& 0x10000000000 = 0 := by decide
theorem test_witness_operands :
    decodeTransaction 0x1000000FF01 = .start 0xFF ∧ decodeTransaction 0x1000000FF00 = .setline 0xFF ∧
    decodeTransaction 0x1FCFFFFFFFF = .wrIgn 63 0xFFFFFFFF ∧ decodeTransaction 0x0FF00000000 = .rd 63 := by decide
theorem test_witness_ignored_bits :
    let t : Transaction := 0x10000000301; let u : Transaction := 0x103FFFF03FF
    let v : Transaction := 0x00400000000; let w : Transaction := 0x007FFFFFFFF
    (t.getLsbD 40 = u.getLsbD 40 ∧ t.extractLsb' 34 6 = u.extractLsb' 34 6 ∧ t.extractLsb' 34 6 = 0 ∧
      t.getLsbD 0 = u.getLsbD 0 ∧ t.extractLsb' 8 8 = u.extractLsb' 8 8) ∧
    (v.getLsbD 40 = w.getLsbD 40 ∧ v.extractLsb' 34 6 = w.extractLsb' 34 6 ∧ v.getLsbD 40 = false) := by decide
theorem test_witness_ignored_address_bits :
    let t : Transaction := 0x10412345678; let u : Transaction := 0x10712345678
    t.getLsbD 40 = u.getLsbD 40 ∧ t.extractLsb' 34 6 = u.extractLsb' 34 6 ∧ t.extractLsb' 0 32 = u.extractLsb' 0 32 := by
  decide
theorem test_witness_reserved_codes : 9 ≤ (9 : PhaseCode).toNat ∧ 9 ≤ (15 : PhaseCode).toNat := by decide
theorem test_witness_step_inputs :
    ({ busyState with inputs := [.tick 1] }).inputs = .tick 1 :: [] ∧
    ({ busyState with inputs := [.host 0x00400000000] }).inputs = .host 0x00400000000 :: [] ∧
    busyState.inputs = [] := by decide
theorem test_witness_placed_word :
    decodeTableWord 8 7 = some .phaseBitHigh ∧ decodeTableWord 48 0x10000000001 = some (.start 0) := by decide
theorem test_witness_startLow_clauses :
    (2000 ≤ ((inPhase 1 1999 0 0).now + 1 - (inPhase 1 1999 0 0).t0).toNat) ∧
    ((inPhase 1 1998 0 0).now + 1 - (inPhase 1 1998 0 0).t0).toNat < 2000 := by decide
theorem test_witness_release_clauses :
    (1 ≤ ((inPhase 2 0 0 0).now + 1 - (inPhase 2 0 0 0).t0).toNat) ∧
    ((inPhase 2 0xFFFFFFFF 0 0).now + 1 - (inPhase 2 0xFFFFFFFF 0 0).t0).toNat < 1 := by decide
/-- The clauses of every wait phase: past the bound, at the bound with the line low, at the bound with the line high. -/
theorem test_witness_wait_clauses :
    (100 < ((inPhase 3 100 0 0).now + 1 - (inPhase 3 100 0 0).t0).toNat) ∧
    (((inPhase 3 99 0 0).now + 1 - (inPhase 3 99 0 0).t0).toNat ≤ 100 ∧
      (inPhase 3 99 0 0).lineIn.getLsbD (inPhase 3 99 0 0).line.toNat = false) ∧
    (((inPhase 3 99 0 1).now + 1 - (inPhase 3 99 0 1).t0).toNat ≤ 100 ∧
      (inPhase 3 99 0 1).lineIn.getLsbD (inPhase 3 99 0 1).line.toNat = true) := by decide
theorem test_witness_capture :
    let s := inPhase 7 99 39 0
    (s.now + 1 - s.t0).toNat ≤ 100 ∧ s.lineIn.getLsbD s.line.toNat = false ∧ s.bitidx.toNat < 40 := by decide
theorem test_witness_capture_fault :
    let s := inPhase 7 99 40 0
    (s.now + 1 - s.t0).toNat ≤ 100 ∧ s.lineIn.getLsbD s.line.toNat = false ∧ 40 ≤ s.bitidx.toNat := by decide
theorem test_witness_watchdog :
    (3 ≤ (3 : PhaseCode).toNat ∧ (3 : PhaseCode).toNat ≤ 7 ∧ 100 < ((inPhase 3 100 0 0).now + 1 - (inPhase 3 100 0 0).t0).toNat) ∧
    (3 ≤ (7 : PhaseCode).toNat ∧ (7 : PhaseCode).toNat ≤ 7 ∧ 100 < ((inPhase 7 100 5 0).now + 1 - (inPhase 7 100 5 0).t0).toNat) := by
  decide
theorem test_witness_tick_goes_on :
    Instr.phaseDecode.isBus = false ∧ ∃ t, exec .phaseDecode (decodeState goodPulses) = .next t :=
  ⟨rfl, { okState with t0 := 0 }, next_of_nextOf (by decide +kernel)⟩
theorem test_witness_tick_frame :
    Instr.phaseIdle.isBus = false ∧ (∃ t, exec .phaseIdle okState = .next t) ∧ Instr.phaseIdle ≠ .phaseBitHigh ∧
    Instr.phaseIdle ≠ .phaseRespEnd ∧ Instr.phaseIdle ≠ .phaseDecode := ⟨rfl, ⟨_, rfl⟩, by decide, by decide, by decide⟩
theorem test_witness_selected_line :
    (0xFE : LineLevels).getLsbD busyState.line.toNat = (inPhase 3 5 0 0).lineIn.getLsbD (inPhase 3 5 0 0).line.toNat := by
  decide
theorem test_witness_line_ignored :
    (Instr.rd 7).isBus = true ∧ (Instr.phaseStartLow = .phaseIdle ∨ Instr.phaseStartLow = .phaseStartLow) := by decide
theorem test_witness_shift : Instr.phaseBitHigh ≠ .rd 7 ∧ Instr.rd 6 ≠ .rd 7 := by decide
theorem test_witness_checksum_flip : 7 < 8 ∧ checksum 0x028C00C856 = (0x028C00C856 : Frame).extractLsb' 0 8 := by decide
theorem test_witness_decode_invalid :
    classify (goodPulses.set 5 50)[5] = .invalid ∧
    ∀ (j : Nat) (hj : j < 5), classify ((goodPulses.set 5 50)[j]'(by omega)) ≠ .invalid := by decide +kernel
theorem test_witness_decode_valid : ∀ (i : Nat) (h : i < 40), classify goodPulses[i] ≠ .invalid := by decide +kernel
theorem test_witness_decode_checksum_differs :
    let p := framePulses 0x02 0x8C 0x00 0xC8 0x94
    (∀ (i : Nat) (h : i < 40), classify p[i] ≠ .invalid) ∧ checksum (pack p) ≠ (pack p).extractLsb' 0 8 := by decide +kernel
theorem test_witness_decode_checksum_agrees :
    checksum (pack goodPulses) = (pack goodPulses).extractLsb' 0 8 := by decide +kernel
theorem test_witness_reset_cycle :
    ({ busyState with inputs := [.reset (some 0x00800000000)] }).inputs = .reset (some 0x00800000000) :: [] ∧
    decodeTransaction 0x00800000000 = .rd 2 := by decide
theorem test_witness_reset_cycle_no_read :
    ({ busyState with inputs := [.reset none] }).inputs = .reset none :: [] ∧
    ∀ t a, (none : Option Transaction) = some t → decodeTransaction t ≠ .rd a := ⟨rfl, fun _ _ h => nomatch h⟩

/-- The state after an accepted START meets the invariant. -/
theorem test_witness_busy_inv : busyState.Inv where
  numLines := by decide
  phase := by decide
  busy := by decide
  line := fun _ => by decide
  inTime := ⟨fun _ => by decide, fun _ => by decide, fun _ => by decide⟩
  index := ⟨by decide, fun _ => by decide, fun _ => by decide, fun h => absurd h (by decide)⟩
  pulses := by
    show ∀ (i : Nat) (h : i < 40), (i < 0 → _) ∧ (0 ≤ i → (Vector.replicate 40 (0 : Byte))[i] = 0)
    intro i h
    exact ⟨fun h => absurd h (by omega), fun _ => by simp⟩
  notBoth := fun _ => rfl
  cleared := fun _ => ⟨rfl, rfl, rfl, rfl, rfl, rfl, rfl⟩
  idleIndex := fun _ _ => rfl
  reported := fun h => nomatch h

/-- So does the end state of program P1, idle with a measurement. -/
theorem test_witness_ok_inv : okState.Inv where
  numLines := by decide
  phase := by decide
  busy := by decide
  line := fun h => nomatch h
  inTime := by refine ⟨fun h => ?_, fun h => ?_, fun h => ?_⟩ <;> revert h <;> decide
  index := by refine ⟨by decide, fun h => ?_, fun h => ?_, fun h => ?_⟩ <;> revert h <;> decide
  pulses := by
    show ∀ (i : Nat) (h : i < 40), _
    decide +kernel
  notBoth := fun h => nomatch h
  cleared := fun h => nomatch h
  idleIndex := fun _ h => nomatch h
  reported := fun _ => by
    refine And.intro ?_ (And.intro ?_ (And.intro ?_ (And.intro ?_ (And.intro ?_ (And.intro ?_ ⟨rfl, rfl, rfl⟩))))) <;>
      decide +kernel

/-- And the end state of program P2, idle after a Timeout. -/
theorem test_witness_timeout_inv : timeoutState.Inv where
  numLines := by decide
  phase := by decide
  busy := by decide
  line := fun h => nomatch h
  inTime := by refine ⟨fun h => ?_, fun h => ?_, fun h => ?_⟩ <;> revert h <;> decide
  index := by refine ⟨by decide, fun h => ?_, fun h => ?_, fun h => ?_⟩ <;> revert h <;> decide
  pulses := by
    show ∀ (i : Nat) (h : i < 40), (i < 0 → _) ∧ (0 ≤ i → (Vector.replicate 40 (0 : Byte))[i] = 0)
    intro i h
    exact ⟨fun h => absurd h (by omega), fun _ => by simp⟩
  notBoth := fun h => nomatch h
  cleared := fun h => nomatch h
  idleIndex := fun _ h => nomatch h
  reported := fun _ => ⟨rfl, rfl, rfl, rfl, rfl, by decide, by decide, by decide⟩

/-- One tick before the Timeout of program P2. -/
def beforeTimeout : State :=
  { busyState with phase := 3, now := 2101, t0 := 2001, inputs := [.tick (BitVec.allOnes 256)] }
/-- One tick before the end of program P1. -/
def beforeOk : State :=
  { decodeState goodPulses with t0 := 5686, inputs := [.tick (BitVec.allOnes 256)] }

theorem test_step_before_timeout : step beforeTimeout = .next timeoutState := next_of_nextOf (by decide +kernel)
theorem test_step_before_ok : step beforeOk = .next okState := next_of_nextOf (by decide +kernel)

/-- A wait phase at its last tick meets the invariant. -/
theorem test_witness_before_timeout_inv : beforeTimeout.Inv where
  numLines := by decide
  phase := by decide
  busy := by decide
  line := fun _ => by decide
  inTime := ⟨fun h => absurd h (by decide), fun h => absurd h (by decide), fun _ => by decide⟩
  index := ⟨by decide, fun _ => by decide, fun _ => by decide, fun h => absurd h (by decide)⟩
  pulses := by
    show ∀ (i : Nat) (h : i < 40), (i < 0 → _) ∧ (0 ≤ i → (Vector.replicate 40 (0 : Byte))[i] = 0)
    intro i h
    exact ⟨fun h => absurd h (by omega), fun _ => by simp⟩
  notBoth := fun _ => rfl
  cleared := fun _ => ⟨rfl, rfl, rfl, rfl, rfl, rfl, rfl⟩
  idleIndex := fun h => nomatch h
  reported := fun h => nomatch h

/-- DECODE with 40 captured pulses meets the invariant. -/
theorem test_witness_before_ok_inv : beforeOk.Inv where
  numLines := by decide
  phase := by decide
  busy := by decide
  line := fun _ => by decide
  inTime := ⟨fun h => absurd h (by decide), fun h => absurd h (by decide), fun h => absurd h (by decide)⟩
  index := ⟨by decide, fun h => absurd h (by decide), fun h => absurd h (by decide), fun _ => by decide⟩
  pulses := by
    show ∀ (i : Nat) (h : i < 40), _
    decide +kernel
  notBoth := fun _ => rfl
  cleared := fun _ => ⟨rfl, rfl, rfl, rfl, rfl, rfl, rfl⟩
  idleIndex := fun h => nomatch h
  reported := fun h => nomatch h

theorem test_witness_step_keeps_invariant :
    beforeOk.Inv ∧ step beforeOk = .next okState := ⟨test_witness_before_ok_inv, test_step_before_ok⟩
theorem test_witness_ends_with_timeout :
    beforeTimeout.Inv ∧ beforeTimeout.busy = true ∧ step beforeTimeout = .next timeoutState ∧
    timeoutState.busy = false ∧ (∀ access rest, beforeTimeout.inputs ≠ .reset access :: rest) ∧
    timeoutState.outcome = .timeout :=
  ⟨test_witness_before_timeout_inv, rfl, test_step_before_timeout, rfl, fun _ _ => by simp [beforeTimeout], rfl⟩
theorem test_witness_ends_without_timeout :
    beforeOk.Inv ∧ beforeOk.busy = true ∧ step beforeOk = .next okState ∧ okState.busy = false ∧
    (∀ access rest, beforeOk.inputs ≠ .reset access :: rest) ∧ okState.outcome ≠ .timeout :=
  ⟨test_witness_before_ok_inv, rfl, test_step_before_ok, rfl, fun _ _ => by simp [beforeOk], by decide⟩
theorem test_witness_ends_within_bound :
    { busyState with inputs := [.tick 0] }.busy = true ∧ State.OnlyTicks { busyState with inputs := [.tick 0] } ∧
    busyState.Inv ∧ busyState.OnlyTicks :=
  ⟨rfl, fun i h => ⟨0, by simpa using h⟩, test_witness_busy_inv, fun i h => nomatch h⟩
theorem test_witness_lasts_at_least :
    okState.busy = false ∧ Config.NumLinesOk okState.numLines ∧ (0 : LineIdx).toNat < okState.numLines ∧
    okState.OnlyTicks ∧ (∃ u, exec (.start 0) okState = .next u) ∧ 2084 < 2085 :=
  ⟨rfl, by decide, by decide, fun i h => (nomatch h), ⟨_, rfl⟩, by decide⟩
theorem test_witness_results_stay :
    let s := { okState with inputs := [.host 0x10000000101] }
    s.phase = 0 ∧ s.busy = false ∧ (∃ t, step s = .next t) ∧ (∀ access rest, s.inputs ≠ .reset access :: rest) ∧
    (∀ tr rest l, s.inputs = .host tr :: rest → decodeTransaction tr = .start l → s.numLines ≤ l.toNat) := by
  refine ⟨rfl, rfl, ⟨_, rfl⟩, fun _ _ => by simp, fun tr rest l h hd => ?_⟩
  simp only [List.cons.injEq, Input.host.injEq] at h
  rw [← h.1, show decodeTransaction 0x10000000101 = .start 1 by decide] at hd
  cases hd
  decide
theorem test_witness_busy_set :
    okState.busy = false ∧ ∃ t, step { okState with inputs := [.host 0x10000000001] } = .next t ∧ t.busy = true :=
  ⟨rfl, _, rfl, rfl⟩
theorem test_witness_valid : okState.valid = true ∧ timeoutState.valid = false := by decide
theorem test_witness_line_driven : busyState.lineOe 0 = true := by decide
theorem test_witness_retry : 1 ≤ 1 ∧ (retry 2 fun _ => .ok).attempts < 2 := by decide

end Sys2Proof.Tests
end

section
/-! SUPPORT. The step runs what was fetched: the listed inputs, and the word that `withFetchWord` places. -/

namespace Sys2Proof.Machine

/-- Settles O17: the three ways a step can begin outside reset, each by its own rule of the step. -/
theorem stepRunsDecodedInstruction : Obligations.StepRunsDecodedInstruction :=
  fun _ => ⟨fun _ _ => step_tick, fun _ _ => step_host, fun h => ⟨_, step_draw h⟩⟩

/-- A placed transaction is the host access of the next step. -/
theorem step_withWord_bus (s : State) (t : Transaction) :
    step (s.withWord (.bus t)) = exec (decodeTransaction t) s :=
  step_host rfl

/-- A placed phase code is the phase of the next tick, with every line low. -/
theorem step_withWord_phase (s : State) (c : PhaseCode) :
    step (s.withWord (.phase c)) = exec (decodePhase c) { s with phase := c, lineIn := 0 } :=
  step_tick rfl

/-- Bits that are a phase code are that code's number. -/
theorem toNat_of_wordOfBits_phase {nbits w : Nat} {c : PhaseCode} (h : wordOfBits nbits w = .ok (.phase c)) :
    c.toNat = w := by
  rw [wordOfBits] at h
  split_ifs at h with hn hw hw
  · cases h
    exact BitVec.toNat_ofNat w 4 ▸ Nat.mod_eq_of_lt hw
  · cases h

/-- Bits that decode are a word, and the instruction is that word's. -/
theorem word_of_decodeTableWord {nbits w : Nat} {i : Instr} (h : decodeTableWord nbits w = some i) :
    ∃ word, wordOfBits nbits w = .ok word ∧ decodeWord word = i := by
  rw [decodeTableWord] at h
  cases hw : wordOfBits nbits w with
  | ok word =>
    rw [hw] at h
    exact ⟨word, rfl, Option.some.inj h⟩
  | error e =>
    rw [hw] at h
    cases h

/-- Bits that are a word are placed as that word. -/
theorem withFetchWord_of_word {s : State} {nbits w : Nat} {word : InstrWord} (h : wordOfBits nbits w = .ok word) :
    s.withFetchWord nbits w = s.withWord word := by
  rw [State.withFetchWord, h]

/-- Settles O18, by the format of the word: a transaction leaves phase and levels, a phase code sets both. -/
theorem placedWordIsRunNext : Obligations.PlacedWordIsRunNext := by
  intro s nbits w i h
  obtain ⟨word, hword, rfl⟩ := word_of_decodeTableWord h
  rw [withFetchWord_of_word hword]
  cases word with
  | bus t =>
    refine ⟨s.phase, s.lineIn, step_withWord_bus s t, fun _ => ⟨rfl, rfl⟩, fun hbus => ?_⟩
    exact absurd hbus (by simp [decodeWord, decodeTransaction_isBus])
  | phase c =>
    refine ⟨c, 0, step_withWord_phase s c, fun hbus => ?_, fun _ => toNat_of_wordOfBits_phase hword⟩
    exact absurd hbus (by simp [decodeWord, decodePhase_isBus])

end Sys2Proof.Machine
end

section
/-! SUPPORT. Every attempt ends within the bound of 00_scope.md R15: each tick of a running attempt ends it or brings
it nearer to the last tick its phase leaves it. -/

namespace Sys2Proof.Machine

/-! ### A tick of a legal phase goes on -/

/-- A wait phase goes on where the state change of its level does. -/
theorem exists_next_waitPhase {s : State} {p : PhaseCode} {lvl : Bool}
    {adv : State → Host.Outcome State Fault Refusal} (h : ∃ t, adv s.advanceNow = .next t) :
    ∃ t, s.waitPhase p lvl adv = .next t := by
  rw [State.waitPhase]
  split_ifs
  · exact ⟨_, rfl⟩
  · exact h
  · exact ⟨_, rfl⟩

/-- DECODE always completes (42_frame_decoder.md R169). -/
theorem exists_next_execPhaseDecode (s : State) : ∃ t, execPhaseDecode s = .next t := by
  rw [execPhaseDecode]
  cases firstInvalid s.pulse <;> exact ⟨_, rfl⟩

/-- In a legal phase a tick goes on, if BIT_HIGH has a place for its pulse. -/
theorem exists_next_tick {s : State} (hle : s.phase.toNat ≤ 8)
    (hbit : s.phase = Phase.bitHigh → s.bitidx.toNat < 40) : ∃ t, exec (decodePhase s.phase) s = .next t := by
  obtain hp | hp | hp | hp | hp | hp | hp | hp | hp := phaseCode_cases hle <;> rw [hp]
  · exact ⟨_, rfl⟩
  · exact ⟨_, rfl⟩
  · exact ⟨_, rfl⟩
  · exact exists_next_waitPhase (adv := fun u => .next (u.enterPhase Phase.respHigh)) ⟨_, rfl⟩
  · exact exists_next_waitPhase (adv := fun u => .next (u.enterPhase Phase.respEnd)) ⟨_, rfl⟩
  · exact exists_next_waitPhase (adv := fun u => .next { u.enterPhase Phase.bitLow with bitidx := 0 }) ⟨_, rfl⟩
  · exact exists_next_waitPhase (adv := fun u => .next (u.enterPhase Phase.bitHigh)) ⟨_, rfl⟩
  · exact exists_next_waitPhase (adv := fun u => u.capturePulse (s.elapsed.extractLsb' 0 8))
      ⟨_, capturePulse_next (s := s.advanceNow) (hbit hp)⟩
  · exact exists_next_execPhaseDecode s

/-- With only ticks to come the step is a tick with some levels, and the first input, if any, is used up. -/
theorem step_of_onlyTicks {s : State} (h : s.OnlyTicks) :
    ∃ levels d, step s =
      exec (decodePhase s.phase) { s with inputs := s.inputs.tail, lineIn := levels, draws := d } := by
  cases hin : s.inputs with
  | nil => exact ⟨_, _, by rw [step_draw hin, List.tail_nil, hin]⟩
  | cons i rest =>
    obtain ⟨levels, rfl⟩ := h i (by rw [hin]; exact List.mem_cons_self)
    exact ⟨levels, s.draws, step_tick hin⟩

/-! ### The bit index that goes with a phase -/

theorem indexOfPhase_of_zero {s : State} (hp : 1 ≤ s.phase.toNat ∧ s.phase.toNat ≤ 5) (hb : s.bitidx = 0) :
    s.IndexOfPhase := by
  refine ⟨by simp [hb], fun _ => hb, fun _ => by simp [hb], fun hd => ?_⟩
  simp [hd] at hp

theorem indexOfPhase_of_bit {s : State} (hp : s.phase = Phase.bitLow ∨ s.phase = Phase.bitHigh)
    (hb : s.bitidx.toNat < 40) : s.IndexOfPhase := by
  refine ⟨hb.le, fun hr => ?_, fun _ => hb, fun hd => ?_⟩
  · obtain hp | hp := hp <;> simp [hp] at hr
  · obtain hp | hp := hp <;> simp [hp] at hd

theorem indexOfPhase_of_decode {s : State} (hp : s.phase = Phase.decode) (hb : s.bitidx = 40) :
    s.IndexOfPhase := by
  refine ⟨by simp [hb], fun hr => ?_, fun hr => ?_, fun _ => hb⟩ <;> simp [hp] at hr

/-- While a wait phase lasts the bit index is one of a bit still to be captured. -/
theorem State.IndexOfPhase.bitidx_lt {s : State} (h : s.IndexOfPhase)
    (hw : 3 ≤ s.phase.toNat ∧ s.phase.toNat ≤ 7) : s.bitidx.toNat < 40 := by
  obtain ⟨-, hzero, hbit, -⟩ := h
  by_cases h5 : s.phase.toNat ≤ 5
  · simp [hzero ⟨by omega, h5⟩]
  · exact hbit (by bv_omega)

/-! ### The distance to the last tick -/

/-- The most ticks from the entry of a phase at bit index `b` to the tick before the attempt's last one: the
remaining summands of 00_scope.md R15. -/
def ticksToLast (p : PhaseCode) (b : Nat) : Nat :=
  match p.toNat with
  | 1 => Config.params.startLowUs + Config.params.releaseUs + 3 * Config.params.timeoutUs +
      Config.params.nbits * (2 * Config.params.timeoutUs)
  | 2 => Config.params.releaseUs + 3 * Config.params.timeoutUs + Config.params.nbits * (2 * Config.params.timeoutUs)
  | 3 => 3 * Config.params.timeoutUs + Config.params.nbits * (2 * Config.params.timeoutUs)
  | 4 => 2 * Config.params.timeoutUs + Config.params.nbits * (2 * Config.params.timeoutUs)
  | 5 => Config.params.timeoutUs + Config.params.nbits * (2 * Config.params.timeoutUs)
  | 6 => (Config.params.nbits - b) * (2 * Config.params.timeoutUs)
  | 7 => (Config.params.nbits - b) * (2 * Config.params.timeoutUs) - Config.params.timeoutUs
  | _ => 0

theorem ticksToLast_startLow (b : Nat) : ticksToLast Phase.startLow b = 10301 := rfl
theorem ticksToLast_release (b : Nat) : ticksToLast Phase.release b = 8301 := rfl
theorem ticksToLast_respLow (b : Nat) : ticksToLast Phase.respLow b = 8300 := rfl
theorem ticksToLast_respHigh (b : Nat) : ticksToLast Phase.respHigh b = 8200 := rfl
theorem ticksToLast_respEnd (b : Nat) : ticksToLast Phase.respEnd b = 8100 := rfl
theorem ticksToLast_bitLow (b : Nat) : ticksToLast Phase.bitLow b = (40 - b) * 200 := rfl
theorem ticksToLast_bitHigh (b : Nat) : ticksToLast Phase.bitHigh b = (40 - b) * 200 - 100 := rfl
theorem ticksToLast_decode (b : Nat) : ticksToLast Phase.decode b = 0 := rfl

/-- No phase leaves as much as the bound of the whole attempt. -/
theorem ticksToLast_lt_maxAttemptTicks (p : PhaseCode) (b : Nat) : ticksToLast p b < maxAttemptTicks := by
  rw [ticksToLast]
  split <;> simp only [maxAttemptTicks, Config.params] <;> omega

/-- A wait phase leaves at least its own bound. -/
theorem timeoutUs_le_ticksToLast {p : PhaseCode} {b : Nat} (hw : 3 ≤ p.toNat ∧ p.toNat ≤ 7) (hb : b < 40) :
    Config.params.timeoutUs ≤ ticksToLast p b := by
  rw [ticksToLast]
  obtain ⟨h3, h7⟩ := hw
  interval_cases p.toNat <;> simp only [Config.params] <;> omega

/-- The most ticks before the attempt's last one, from a state within a phase. -/
def State.ticksLeft (s : State) : Nat := ticksToLast s.phase s.bitidx.toNat - s.sinceEntry

/-! ### Running attempts -/

/-- The part of the invariant that the length of an attempt rests on. -/
structure State.Running (s : State) : Prop where
  notIdle : s.phase ≠ Phase.idle
  legal : s.phase.toNat ≤ 8
  inTime : s.InTime
  index : s.IndexOfPhase

/-- An attempt in progress in a state of the invariant is running. -/
theorem State.Inv.running {s : State} (h : s.Inv) (hbusy : s.busy = true) : s.Running :=
  ⟨h.busy.mp hbusy, h.phase, h.inTime, h.index⟩

/-- In the phases from START_LOW to RESP_END no bit has been captured. -/
theorem State.Running.bitidx_eq_zero {s : State} (h : s.Running) (hp : 1 ≤ s.phase.toNat ∧ s.phase.toNat ≤ 5) :
    s.bitidx = 0 := by
  obtain ⟨-, hzero, -, -⟩ := h.index
  exact hzero hp

/-- What a tick does for the end of the attempt: it ends it, or leaves it running with less to go. -/
def MovesOn (s t : State) : Prop :=
  t.inputs = s.inputs ∧ (t.busy = false ∧ t.done = true ∨ t.Running ∧ t.ticksLeft < s.ticksLeft)

/-- A phase just entered is in time. -/
theorem inTime_of_sinceEntry_eq_zero {s : State} (h : s.sinceEntry = 0) : s.InTime := by
  simp [State.InTime, h, Config.params]

/-- A wait phase is in time up to its own bound. -/
theorem inTime_of_wait {s : State} (hw : 3 ≤ s.phase.toNat ∧ s.phase.toNat ≤ 7)
    (h : s.sinceEntry ≤ Config.params.timeoutUs) : s.InTime := by
  refine ⟨fun hp => ?_, fun hp => ?_, fun _ => h⟩ <;> simp [hp] at hw

/-- No phase with a bound lasts long enough for `e` to wrap. -/
theorem elapsed_toNat_of_lt {s : State} (h : s.sinceEntry < Config.params.startLowUs) :
    s.elapsed.toNat = s.sinceEntry + 1 := by
  rw [elapsed_toNat, Nat.mod_eq_of_lt]
  exact (Nat.succ_le_of_lt h).trans_lt (by decide)

/-- A tick that stays in its phase moves on where the phase is still in time and has ticks left. -/
theorem movesOn_advanceNow {s : State} (hr : s.Running) (hnow : s.sinceEntry < Config.params.startLowUs)
    (hin : s.advanceNow.InTime) (hlt : s.sinceEntry < ticksToLast s.phase s.bitidx.toNat) :
    MovesOn s s.advanceNow := by
  refine ⟨rfl, .inr ⟨⟨hr.notIdle, hr.legal, hin, hr.index⟩, ?_⟩⟩
  rw [State.ticksLeft, State.ticksLeft, sinceEntry_advanceNow, elapsed_toNat_of_lt hnow]
  exact Nat.sub_succ_lt_self _ _ hlt

/-- A tick that enters the phase `q` at bit index `b` moves on where `q` leaves less than is left of the phase before. -/
theorem movesOn_of_enter {s t : State} {p : PhaseCode} (q : PhaseCode) (b : Nat) (hp : s.phase = p)
    (hq : t.phase = q) (hb : t.bitidx.toNat = b) (hlegal : q ≠ Phase.idle ∧ q.toNat ≤ 8)
    (hinp : t.inputs = s.inputs) (hzero : t.sinceEntry = 0) (hidx : t.IndexOfPhase)
    (hlt : ticksToLast q b + s.sinceEntry < ticksToLast p s.bitidx.toNat) : MovesOn s t := by
  subst hp hq hb
  obtain ⟨hni, hle⟩ := hlegal
  refine ⟨hinp, .inr ⟨⟨hni, hle, inTime_of_sinceEntry_eq_zero hzero, hidx⟩, ?_⟩⟩
  rw [State.ticksLeft, State.ticksLeft, hzero]
  omega

/-! ### The ticks, phase by phase -/

theorem movesOn_startLow {s t : State} (hr : s.Running) (hp : s.phase = Phase.startLow)
    (h : exec (decodePhase Phase.startLow) s = .next t) : MovesOn s t := by
  obtain ⟨hstart, -, -⟩ := hr.inTime
  have hs : s.sinceEntry < 2000 := hstart hp
  obtain ⟨-, rfl⟩ | ⟨he, rfl⟩ := exec_phaseStartLow_cases h
  · refine movesOn_of_enter Phase.release s.bitidx.toNat hp rfl rfl (by decide) rfl (sinceEntry_enterPhase _ _) ?_ ?_
    · exact indexOfPhase_of_zero (by simp) (hr.bitidx_eq_zero (by simp [hp]))
    · rw [ticksToLast_release, ticksToLast_startLow]; omega
  · refine movesOn_advanceNow hr hs ?_ ?_
    · simpa [State.InTime, hp, sinceEntry_advanceNow] using he
    · rw [hp, ticksToLast_startLow]; omega

theorem movesOn_release {s t : State} (hr : s.Running) (hp : s.phase = Phase.release)
    (h : exec (decodePhase Phase.release) s = .next t) : MovesOn s t := by
  obtain ⟨-, hrelease, -⟩ := hr.inTime
  have hs : s.sinceEntry < 1 := hrelease hp
  obtain ⟨-, rfl⟩ | ⟨he, rfl⟩ := exec_phaseRelease_cases h
  · refine movesOn_of_enter Phase.respLow s.bitidx.toNat hp rfl rfl (by decide) rfl (sinceEntry_enterPhase _ _) ?_ ?_
    · exact indexOfPhase_of_zero (by simp) (hr.bitidx_eq_zero (by simp [hp]))
    · rw [ticksToLast_respLow, ticksToLast_release]; omega
  · refine movesOn_advanceNow hr (hs.trans (by decide)) ?_ ?_
    · simpa [State.InTime, hp, sinceEntry_advanceNow] using he
    · rw [hp, ticksToLast_release]; omega

/-- A tick of a wait phase ends the attempt, advances, or stays in time: it moves on where advancing does. -/
theorem WaitCases.movesOn {s t : State} {p : PhaseCode} {lvl : Bool} {move : State → State → Prop}
    (h : WaitCases s t p lvl move) (hr : s.Running) (hp : s.phase = p) (hw : 3 ≤ p.toNat ∧ p.toNat ≤ 7)
    (hmove : s.sinceEntry < 100 → move s.advanceNow t → MovesOn s t) : MovesOn s t := by
  subst hp
  obtain ⟨-, -, hwait⟩ := hr.inTime
  have hnow : s.sinceEntry < Config.params.startLowUs := (hwait hw).trans_lt (by decide)
  have hs (he : s.elapsed.toNat ≤ Config.params.timeoutUs) : s.sinceEntry < Config.params.timeoutUs :=
    (elapsed_toNat_of_lt hnow).symm.trans_le he
  obtain ⟨-, rfl⟩ | ⟨he, -, hm⟩ | ⟨he, -, rfl⟩ := h
  · exact ⟨rfl, .inl ⟨rfl, rfl⟩⟩
  · exact hmove (hs he) hm
  · exact movesOn_advanceNow hr hnow (inTime_of_wait hw he)
      ((hs he).trans_le (timeoutUs_le_ticksToLast hw (hr.index.bitidx_lt hw)))

/-- A tick of a wait phase that advances by entering the phase `q` moves on where `q` leaves its bound less. -/
theorem WaitCases.movesOn_enterPhase {s t : State} {p q : PhaseCode} {lvl : Bool}
    (h : WaitCases s t p lvl fun u v => v = u.enterPhase q) (hr : s.Running) (hp : s.phase = p)
    (hw : 3 ≤ p.toNat ∧ p.toNat ≤ 7) (hlegal : q ≠ Phase.idle ∧ q.toNat ≤ 8)
    (hidx : (s.enterPhase q).IndexOfPhase)
    (hle : ticksToLast q s.bitidx.toNat + 100 ≤ ticksToLast p s.bitidx.toNat) : MovesOn s t := by
  refine h.movesOn hr hp hw ?_
  rintro hs rfl
  exact movesOn_of_enter q s.bitidx.toNat hp rfl rfl hlegal rfl (sinceEntry_enterPhase _ _) hidx (by omega)

theorem movesOn_respLow {s t : State} (hr : s.Running) (hp : s.phase = Phase.respLow)
    (h : exec (decodePhase Phase.respLow) s = .next t) : MovesOn s t :=
  (exec_phaseRespLow_cases h).movesOn_enterPhase hr hp (by decide) (by decide)
    (indexOfPhase_of_zero (by simp) (hr.bitidx_eq_zero (by simp [hp])))
    (by rw [ticksToLast_respHigh, ticksToLast_respLow])

theorem movesOn_respHigh {s t : State} (hr : s.Running) (hp : s.phase = Phase.respHigh)
    (h : exec (decodePhase Phase.respHigh) s = .next t) : MovesOn s t :=
  (exec_phaseRespHigh_cases h).movesOn_enterPhase hr hp (by decide) (by decide)
    (indexOfPhase_of_zero (by simp) (hr.bitidx_eq_zero (by simp [hp])))
    (by rw [ticksToLast_respEnd, ticksToLast_respHigh])

theorem movesOn_respEnd {s t : State} (hr : s.Running) (hp : s.phase = Phase.respEnd)
    (h : exec (decodePhase Phase.respEnd) s = .next t) : MovesOn s t := by
  refine (exec_phaseRespEnd_cases h).movesOn hr hp (by decide) ?_
  rintro hs rfl
  refine movesOn_of_enter Phase.bitLow 0 hp rfl rfl (by decide) rfl (sinceEntry_enterPhase s.advanceNow Phase.bitLow)
    (indexOfPhase_of_bit (.inl rfl) (by simp)) ?_
  rw [ticksToLast_bitLow, ticksToLast_respEnd]
  omega

theorem movesOn_bitLow {s t : State} (hr : s.Running) (hp : s.phase = Phase.bitLow)
    (h : exec (decodePhase Phase.bitLow) s = .next t) : MovesOn s t := by
  have hb : s.bitidx.toNat < 40 := hr.index.bitidx_lt (by simp [hp])
  refine (exec_phaseBitLow_cases h).movesOn_enterPhase hr hp (by decide) (by decide)
    (indexOfPhase_of_bit (.inr rfl) hb) ?_
  rw [ticksToLast_bitHigh, ticksToLast_bitLow]
  omega

/-- The capture of bit `i` goes to DECODE after bit 39 and to the low part of bit `i + 1` before. -/
theorem movesOn_bitHigh {s t : State} (hr : s.Running) (hp : s.phase = Phase.bitHigh)
    (h : exec (decodePhase Phase.bitHigh) s = .next t) : MovesOn s t := by
  refine (exec_phaseBitHigh_cases h).movesOn hr hp (by decide) ?_
  rintro hs ⟨hb, rfl⟩
  have hsucc : (s.bitidx + 1).toNat = s.bitidx.toNat + 1 := by bv_omega
  by_cases hlast : s.bitidx.toNat + 1 = Config.params.nbits
  · rw [if_pos hlast]
    refine movesOn_of_enter Phase.decode 40 hp rfl (hsucc.trans hlast) (by decide) rfl (sinceEntry_enterPhase _ _)
      (indexOfPhase_of_decode rfl (BitVec.eq_of_toNat_eq (hsucc.trans hlast))) ?_
    rw [ticksToLast_decode, ticksToLast_bitHigh]
    omega
  · have hmore : s.bitidx.toNat + 1 < 40 := lt_of_le_of_ne hb hlast
    rw [if_neg hlast]
    refine movesOn_of_enter Phase.bitLow _ hp rfl hsucc (by decide) rfl (sinceEntry_enterPhase _ _)
      (indexOfPhase_of_bit (.inl rfl) (hsucc.trans_lt hmore)) ?_
    rw [ticksToLast_bitLow, ticksToLast_bitHigh]
    omega

/-- A tick of DECODE ends the attempt, whatever it reports. -/
theorem movesOn_decode {s t : State} (h : exec (decodePhase Phase.decode) s = .next t) : MovesOn s t := by
  obtain ⟨i, -, rfl⟩ | ⟨-, rfl⟩ := exec_phaseDecode_cases h
  · exact ⟨rfl, .inl ⟨rfl, rfl⟩⟩
  · by_cases hc : checksum (pack s.pulse) = frameByte (pack s.pulse) 4
    · rw [acceptFrame_ok hc]
      exact ⟨rfl, .inl ⟨rfl, rfl⟩⟩
    · rw [acceptFrame_mismatch hc]
      exact ⟨rfl, .inl ⟨rfl, rfl⟩⟩

/-- Every tick of a running attempt moves on. -/
theorem movesOn_tick {s t : State} (hr : s.Running) (h : exec (decodePhase s.phase) s = .next t) : MovesOn s t := by
  obtain hp | hp | hp | hp | hp | hp | hp | hp | hp := phaseCode_cases hr.legal <;> rw [hp] at h
  · exact absurd hp hr.notIdle
  · exact movesOn_startLow hr hp h
  · exact movesOn_release hr hp h
  · exact movesOn_respLow hr hp h
  · exact movesOn_respHigh hr hp h
  · exact movesOn_respEnd hr hp h
  · exact movesOn_bitLow hr hp h
  · exact movesOn_bitHigh hr hp h
  · exact movesOn_decode h

/-! ### The run to the end of the attempt -/

/-- With only ticks to come the step of a running attempt ends it, or leaves it running with less to go. -/
theorem step_of_running {s : State} (hr : s.Running) (ht : s.OnlyTicks) :
    ∃ t, step s = .next t ∧ t.OnlyTicks ∧
      (t.busy = false ∧ t.done = true ∨ t.Running ∧ t.ticksLeft < s.ticksLeft) := by
  obtain ⟨levels, d, hstep⟩ := step_of_onlyTicks ht
  have hu : State.Running { s with inputs := s.inputs.tail, lineIn := levels, draws := d } :=
    ⟨hr.notIdle, hr.legal, hr.inTime, hr.index⟩
  obtain ⟨t, hexec⟩ := exists_next_tick hu.legal fun hp => hu.index.bitidx_lt (by rw [hp]; decide)
  obtain ⟨hinp, hmove⟩ := movesOn_tick hu hexec
  refine ⟨t, hstep.trans hexec, fun i hi => ht i ?_, hmove⟩
  rw [hinp] at hi
  exact List.mem_of_mem_tail hi

/-- A running attempt ends one tick after the ticks it has left, at the latest. -/
theorem run_ends_of_ticksLeft_le (n : Nat) : ∀ {s : State}, s.Running → s.OnlyTicks → s.ticksLeft ≤ n →
    ∃ k t, k ≤ n + 1 ∧ Sys2Proof.core.run k s = .next t ∧ t.busy = false ∧ t.done = true := by
  induction n with
  | zero =>
    intro s hr ht hle
    obtain ⟨t, hstep, -, hend | ⟨-, hlt⟩⟩ := step_of_running hr ht
    · exact ⟨1, t, le_rfl, by simp [Host.Core.run, core, hstep], hend⟩
    · omega
  | succ n ih =>
    intro s hr ht hle
    obtain ⟨t, hstep, hticks, hend | ⟨hrun, hlt⟩⟩ := step_of_running hr ht
    · exact ⟨1, t, by omega, by simp [Host.Core.run, core, hstep], hend⟩
    · obtain ⟨k, v, hk, hv, hend⟩ := ih hrun hticks (by omega)
      exact ⟨k + 1, v, by omega, by simpa [Host.Core.run, core, hstep] using hv, hend⟩

/-- Settles O49: a running attempt has at most 10301 ticks before its last one, and every tick brings that one nearer. -/
theorem attemptEndsWithinBound : Obligations.AttemptEndsWithinBound := by
  intro s hinv hbusy hticks
  have hle : s.ticksLeft ≤ 10301 :=
    (Nat.sub_le _ _).trans (Nat.le_of_lt_succ (ticksToLast_lt_maxAttemptTicks _ _))
  exact run_ends_of_ticksLeft_le 10301 (hinv.running hbusy) hticks hle

end Sys2Proof.Machine
end

section
/-! SUPPORT. What a tick can do, said once for the ticks of all phases, and what follows: NOW, and the frame of the ticks. -/

namespace Sys2Proof.Machine

/-- Everything a tick of the phase rule `i` can do in `s`, with the state after it (41_pulse_sampler.md R120 to R132,
42_frame_decoder.md R160). -/
inductive TickEffect (s : State) (i : Instr) : State → Prop where
  /-- The phase goes on. -/
  | stays : TickEffect s i s.advanceNow
  /-- The next phase is entered. -/
  | enters (p : PhaseCode) : TickEffect s i (s.advanceNow.enterPhase p)
  /-- RESP_END goes to bit 0. -/
  | firstBit (hi : i = .phaseRespEnd) : TickEffect s i { s.advanceNow.enterPhase Phase.bitLow with bitidx := 0 }
  /-- BIT_HIGH records the pulse of its bit. -/
  | captures (hi : i = .phaseBitHigh) (he : s.elapsed.toNat ≤ Config.params.timeoutUs) (hb : s.bitidx.toNat < 40)
      (p : PhaseCode) : TickEffect s i ({ s.advanceNow with
        pulse := s.pulse.set s.bitidx.toNat (s.elapsed.extractLsb' 0 8) hb, bitidx := s.bitidx + 1 }.enterPhase p)
  /-- The watchdog of a wait phase ends the attempt. -/
  | timesOut (p : PhaseCode) (hi : i = decodePhase p) (hw : 3 ≤ p.toNat ∧ p.toNat ≤ 7) :
      TickEffect s i (s.advanceNow.raiseTimeout p)
  /-- DECODE finds a pulse outside both bit zones. -/
  | findsInvalid (hi : i = .phaseDecode) (k : Nat) (hk : firstInvalid s.pulse = some k) :
      TickEffect s i (s.advanceNow.raiseInvalidPulseWidth k)
  /-- DECODE accepts or rejects the frame by its checksum. -/
  | decodes (hi : i = .phaseDecode) (hv : firstInvalid s.pulse = none) :
      TickEffect s i (s.advanceNow.acceptFrame (pack s.pulse))

/-- A tick of a wait phase stays, times out, or does what its level means. -/
theorem WaitCases.tickEffect {s t : State} {p : PhaseCode} {lvl : Bool} {move : State → State → Prop}
    (h : WaitCases s t p lvl move) (hw : 3 ≤ p.toNat ∧ p.toNat ≤ 7)
    (hmove : s.elapsed.toNat ≤ Config.params.timeoutUs → move s.advanceNow t → TickEffect s (decodePhase p) t) :
    TickEffect s (decodePhase p) t := by
  obtain ⟨-, rfl⟩ | ⟨he, -, hm⟩ | ⟨-, -, rfl⟩ := h
  · exact .timesOut p rfl hw
  · exact hmove he hm
  · exact .stays

/-- A tick of a wait phase that advances by entering a phase. -/
theorem WaitCases.tickEffect_enterPhase {s t : State} {p q : PhaseCode} {lvl : Bool}
    (h : WaitCases s t p lvl fun u v => v = u.enterPhase q) (hw : 3 ≤ p.toNat ∧ p.toNat ≤ 7) :
    TickEffect s (decodePhase p) t :=
  h.tickEffect hw fun _ ht => ht ▸ .enters q

/-- A tick that goes on has one of these effects, phase by phase. -/
theorem tickEffect_of_exec {i : Instr} {s t : State} (hi : i.isBus = false) (h : exec i s = .next t) :
    TickEffect s i t := by
  cases i with
  | start _ | setline _ | wrIgn _ _ | rd _ => cases hi
  | phaseReserved _ => cases h
  | phaseIdle => exact exec_phaseIdle h ▸ .stays
  | phaseStartLow =>
    obtain ⟨-, rfl⟩ | ⟨-, rfl⟩ := exec_phaseStartLow_cases h
    · exact .enters _
    · exact .stays
  | phaseRelease =>
    obtain ⟨-, rfl⟩ | ⟨-, rfl⟩ := exec_phaseRelease_cases h
    · exact .enters _
    · exact .stays
  | phaseRespLow => exact (exec_phaseRespLow_cases h).tickEffect_enterPhase (by decide)
  | phaseRespHigh => exact (exec_phaseRespHigh_cases h).tickEffect_enterPhase (by decide)
  | phaseRespEnd => exact (exec_phaseRespEnd_cases h).tickEffect (by decide) fun _ ht => ht ▸ .firstBit rfl
  | phaseBitLow => exact (exec_phaseBitLow_cases h).tickEffect_enterPhase (by decide)
  | phaseBitHigh =>
    refine (exec_phaseBitHigh_cases h).tickEffect (by decide) ?_
    rintro he ⟨hb, rfl⟩
    exact .captures rfl he hb _
  | phaseDecode =>
    obtain ⟨k, hk, rfl⟩ | ⟨hv, rfl⟩ := exec_phaseDecode_cases h
    · exact .findsInvalid rfl k hk
    · exact .decodes rfl hv

/-- What accepting a frame leaves unchanged, and that it ends the attempt, whatever the checksum. -/
theorem acceptFrame_frame (s : State) (f : Frame) :
    s.acceptFrame f = { s.endAttempt (s.acceptFrame f).outcome with
      frame := f, csumCalc := checksum f, hum := (s.acceptFrame f).hum, temp := (s.acceptFrame f).temp } := by
  by_cases hc : checksum f = frameByte f 4
  · rw [acceptFrame_ok hc]; rfl
  · rw [acceptFrame_mismatch hc]; rfl

theorem TickEffect.now_eq {s t : State} {i : Instr} (h : TickEffect s i t) : t.now = s.now + 1 := by
  cases h with
  | decodes => rw [acceptFrame_frame]; rfl
  | _ => rfl

/-- Settles O30: every effect of a tick counts NOW once. -/
theorem everyTickAddsOneToNow : Obligations.EveryTickAddsOneToNow := by
  intro i s t hi h
  rw [(tickEffect_of_exec hi h).now_eq, BitVec.toNat_add]
  rfl

/-- A tick leaves BUSY, DONE and OUTCOME, or ends the attempt with `t0` kept (60_exceptions.md R216). -/
theorem TickEffect.flags {s t : State} {i : Instr} (h : TickEffect s i t) :
    t.busy = s.busy ∧ t.done = s.done ∧ t.outcome = s.outcome ∨
      t.busy = false ∧ t.done = true ∧ t.phase = 0 ∧ t.t0 = s.t0 := by
  cases h with
  | stays | enters | firstBit | captures => exact .inl ⟨rfl, rfl, rfl⟩
  | timesOut | findsInvalid => exact .inr ⟨rfl, rfl, rfl, rfl⟩
  | decodes => rw [acceptFrame_frame]; exact .inr ⟨rfl, rfl, rfl, rfl⟩

/-- What no tick writes. -/
theorem TickEffect.untouched {s t : State} {i : Instr} (h : TickEffect s i t) :
    t.line = s.line ∧ t.cmderr = s.cmderr ∧ t.numLines = s.numLines ∧ t.lineIn = s.lineIn ∧
    t.inputs = s.inputs ∧ t.draws = s.draws ∧ t.rdata = s.rdata := by
  cases h with
  | decodes => rw [acceptFrame_frame]; exact ⟨rfl, rfl, rfl, rfl, rfl, rfl, rfl⟩
  | _ => exact ⟨rfl, rfl, rfl, rfl, rfl, rfl, rfl⟩

/-- Only BIT_HIGH writes the pulse file. -/
theorem TickEffect.pulse_eq {s t : State} {i : Instr} (h : TickEffect s i t) (hi : i ≠ .phaseBitHigh) :
    t.pulse = s.pulse := by
  cases h with
  | captures hcap => exact absurd hcap hi
  | decodes => rw [acceptFrame_frame]; rfl
  | _ => rfl

/-- Only the pulse at the bit index is ever written (41_pulse_sampler.md R132). -/
theorem TickEffect.pulse_getElem_eq {s t : State} {i : Instr} (h : TickEffect s i t) {k : Nat} (hk : k < 40)
    (hne : k ≠ s.bitidx.toNat) : t.pulse[k] = s.pulse[k] := by
  cases h with
  | captures _ _ hb _ => exact Vector.getElem_set_ne hb hk hne.symm
  | decodes => rw [acceptFrame_frame]; rfl
  | _ => rfl

/-- Only BIT_HIGH and RESP_END write the bit index. -/
theorem TickEffect.bitidx_eq {s t : State} {i : Instr} (h : TickEffect s i t) (hbit : i ≠ .phaseBitHigh)
    (hend : i ≠ .phaseRespEnd) : t.bitidx = s.bitidx := by
  cases h with
  | firstBit hi => exact absurd hi hend
  | captures hi => exact absurd hi hbit
  | decodes => rw [acceptFrame_frame]; rfl
  | _ => rfl

/-- Only DECODE writes the frame, the checksum, FAILBIT and the values. -/
theorem TickEffect.results_eq {s t : State} {i : Instr} (h : TickEffect s i t) (hd : i ≠ .phaseDecode) :
    t.frame = s.frame ∧ t.csumCalc = s.csumCalc ∧ t.failbit = s.failbit ∧ t.hum = s.hum ∧ t.temp = s.temp := by
  cases h with
  | findsInvalid hi | decodes hi => exact absurd hi hd
  | _ => exact ⟨rfl, rfl, rfl, rfl, rfl⟩

/-- The codes of the wait phases name neither IDLE, START_LOW, RELEASE nor DECODE. -/
theorem decodePhase_of_wait {p : PhaseCode} (hw : 3 ≤ p.toNat ∧ p.toNat ≤ 7) :
    ¬ (decodePhase p = .phaseDecode ∨ decodePhase p = .phaseIdle ∨ decodePhase p = .phaseStartLow ∨
      decodePhase p = .phaseRelease) := by
  revert p
  decide

/-- Only a wait phase writes FAILPHASE (41_pulse_sampler.md R124). -/
theorem TickEffect.failphase_eq {s t : State} {i : Instr} (h : TickEffect s i t)
    (hi : i = .phaseDecode ∨ i = .phaseIdle ∨ i = .phaseStartLow ∨ i = .phaseRelease) :
    t.failphase = s.failphase := by
  cases h with
  | timesOut p hp hw => exact absurd (hp ▸ hi) (decodePhase_of_wait hw)
  | decodes => rw [acceptFrame_frame]; rfl
  | _ => rfl

/-- Settles O31: each clause is what the effects of a tick leave unchanged. -/
theorem tickFrame : Obligations.TickFrame := by
  intro i s t hi hexec
  have h := tickEffect_of_exec hi hexec
  obtain ⟨hline, hcmderr, hnum, hlevels, hinputs, hdraws, hrdata⟩ := h.untouched
  exact ⟨hline, hcmderr, hnum, hlevels, hinputs, hdraws, hrdata, h.pulse_eq, fun _ hk => h.pulse_getElem_eq hk,
    h.bitidx_eq, h.results_eq, h.failphase_eq, h.flags⟩

end Sys2Proof.Machine
end

section
/-! SUPPORT. What a host operation can do, said once, and what follows: BUSY is set by an accepted START alone. -/

namespace Sys2Proof.Machine

/-- Everything a host operation can do: begin an attempt, select a line while none runs, or leave all but CMDERR and
the host's answer (40_host_interface.md R101 to R106). -/
theorem hostOperation_cases {i : Instr} {s t : State} (hi : i.isBus = true) (h : exec i s = .next t) :
    (∃ l, i = .start l ∧ s.busy = false ∧ l.toNat < s.numLines ∧ t = s.beginAttempt l) ∨
    (∃ l e, s.busy = false ∧ t = { s with line := l, cmderr := e }) ∨
    (∃ e v, t = { s with cmderr := e, rdata := v }) := by
  cases i with
  | start l =>
    change execStart l s = _ at h
    rw [execStart] at h
    split_ifs at h with hb hl <;> replace h := (Host.Outcome.next.inj h).symm
    · exact .inr (.inr ⟨true, s.rdata, h⟩)
    · exact .inl ⟨l, rfl, by simpa using hb, hl, h⟩
    · exact .inr (.inl ⟨l, true, by simpa using hb, h⟩)
  | setline l =>
    change execSetline l s = _ at h
    rw [execSetline] at h
    split_ifs at h with hb <;> replace h := (Host.Outcome.next.inj h).symm
    · exact .inr (.inr ⟨s.cmderr, s.rdata, h⟩)
    · exact .inr (.inl ⟨l, s.cmderr, by simpa using hb, h⟩)
  | wrIgn a w => exact .inr (.inr ⟨s.cmderr, s.rdata, (Host.Outcome.next.inj h).symm⟩)
  | rd a => exact .inr (.inr ⟨s.cmderr, s.readReg a, (Host.Outcome.next.inj h).symm⟩)
  | phaseIdle | phaseStartLow | phaseRelease | phaseRespLow | phaseRespHigh | phaseRespEnd | phaseBitLow
  | phaseBitHigh | phaseDecode | phaseReserved _ => cases hi

/-- Settles O53, by agent: a reset cycle clears BUSY, no tick sets it, and of the host operations only an accepted
START does. -/
theorem busySetOnlyByAcceptedStart : Obligations.BusySetOnlyByAcceptedStart := by
  intro s t hs hstep ht
  obtain ⟨access, rest, -, rfl⟩ | ⟨tr, rest, hin, h⟩ | ⟨levels, d, h⟩ := step_cases hstep
  · obtain ⟨v, hv⟩ := accessInReset_eq { s with inputs := rest }.resetStep access
    rw [hv] at ht
    cases ht
  · obtain ⟨l, hi, -, hl, rfl⟩ | ⟨l, e, -, rfl⟩ | ⟨e, v, rfl⟩ :=
      hostOperation_cases (decodeTransaction_isBus tr) h
    · exact ⟨tr, rest, l, hin, hi, hl, rfl⟩
    · exact absurd ht (by simp [hs])
    · exact absurd ht (by simp [hs])
  · obtain ⟨hbusy, -, -⟩ | ⟨hbusy, -, -, -⟩ := (tickEffect_of_exec (decodePhase_isBus _) h).flags
    · exact absurd (hbusy.symm.trans ht) (by simp [hs])
    · exact absurd ht (by simp [hbusy])

end Sys2Proof.Machine
end

section
/-! SUPPORT. Every step keeps the invariant: what holds of an idle, a running, a just ended and a just begun attempt,
and that each effect of a step leads to one of them. -/

namespace Sys2Proof.Machine

/-! ### The parts of the invariant -/

/-- IDLE has no bound. -/
theorem inTime_of_idle {s : State} (hp : s.phase = Phase.idle) : s.InTime := by
  simp [State.InTime, hp]

/-- IDLE keeps whatever bit index the last attempt left. -/
theorem indexOfPhase_of_idle {s : State} (hp : s.phase = Phase.idle) (hb : s.bitidx.toNat ≤ 40) :
    s.IndexOfPhase := by
  simp [State.IndexOfPhase, hp, hb]

/-- Before the first capture the pulse file is empty. -/
theorem pulsesCaptured_of_empty {s : State} (hb : s.bitidx = 0) (hp : s.pulse = Vector.replicate 40 0) :
    s.PulsesCaptured := by
  intro i hi
  simp [hb, hp]

/-- Captured pulses are a matter of the pulse file and the bit index alone. -/
theorem State.PulsesCaptured.of_eq {s t : State} (h : s.PulsesCaptured) (hb : t.bitidx = s.bitidx)
    (hp : t.pulse = s.pulse) : t.PulsesCaptured := by
  intro i hi
  simpa only [hb, hp] using h i hi

/-- Capturing a pulse of 1 to TIMEOUT_US (10_state.md R40, 41_pulse_sampler.md R132). -/
theorem State.PulsesCaptured.capture {s t : State} {d : Byte} (h : s.PulsesCaptured) (hb : s.bitidx.toNat < 40)
    (hd : 1 ≤ d.toNat ∧ d.toNat ≤ Config.params.timeoutUs) (hidx : t.bitidx = s.bitidx + 1)
    (hpulse : t.pulse = s.pulse.set s.bitidx.toNat d hb) : t.PulsesCaptured := by
  intro i hi
  have hsucc : t.bitidx.toNat = s.bitidx.toNat + 1 := by rw [hidx]; bv_omega
  obtain ⟨hbelow, habove⟩ := h i hi
  simp only [hpulse, Vector.getElem_set, hsucc]
  split_ifs with heq
  · exact ⟨fun _ => hd, fun hle => by omega⟩
  · exact ⟨fun hlt => hbelow (by omega), fun hle => habove (by omega)⟩

/-- The duration a tick in time records is `e` itself, and not 0. -/
theorem recordedDuration_bounds {s : State} (hs : s.sinceEntry < Config.params.startLowUs)
    (he : s.elapsed.toNat ≤ Config.params.timeoutUs) :
    1 ≤ (s.elapsed.extractLsb' 0 8).toNat ∧ (s.elapsed.extractLsb' 0 8).toNat ≤ Config.params.timeoutUs := by
  have hone := elapsed_toNat_of_lt hs
  have hmod : (s.elapsed.extractLsb' 0 8).toNat = s.elapsed.toNat := by
    rw [BitVec.extractLsb'_toNat, Nat.shiftRight_zero]
    exact Nat.mod_eq_of_lt (he.trans_lt (by decide))
  omega

/-- Cleared results are a matter of the result registers alone. -/
theorem State.Cleared.of_eq {s t : State} (h : s.Cleared)
    (he : t.outcome = s.outcome ∧ t.failphase = s.failphase ∧ t.failbit = s.failbit ∧ t.csumCalc = s.csumCalc ∧
      t.frame = s.frame ∧ t.hum = s.hum ∧ t.temp = s.temp) : t.Cleared := by
  obtain ⟨hout, hphase, hbit, hcsum, hframe, hhum, htemp⟩ := he
  exact ⟨hout.trans h.outcome, hphase.trans h.failphase, hbit.trans h.failbit, hcsum.trans h.csumCalc,
    hframe.trans h.frame, hhum.trans h.hum, htemp.trans h.temp⟩

/-! ### States of the invariant -/

/-- The invariant says nothing of CMDERR and the model's own fields but NUM_LINES. -/
theorem State.Inv.with_environment {s : State} (h : s.Inv) (e : Bool) (levels : LineLevels) (ins : List Input)
    (d : Nat) (v : Word) :
    State.Inv { s with cmderr := e, lineIn := levels, inputs := ins, draws := d, rdata := v } :=
  ⟨h.numLines, h.phase, h.busy, h.line, h.inTime, h.index, h.pulses, h.notBoth,
    fun hd => (h.cleared hd).of_eq ⟨rfl, rfl, rfl, rfl, rfl, rfl, rfl⟩, h.idleIndex, h.reported⟩

theorem State.Inv.phase_of_not_busy {s : State} (h : s.Inv) (hb : s.busy = false) : s.phase = Phase.idle := by
  by_contra hp
  simp [h.busy.mpr hp] at hb

/-- While no attempt runs the invariant says nothing of the line and NOW. -/
theorem State.Inv.with_line_now {s : State} (h : s.Inv) (hb : s.busy = false) (l : LineIdx) (n : Word) :
    State.Inv { s with line := l, now := n } :=
  ⟨h.numLines, h.phase, h.busy, fun hbusy => absurd (hb.symm.trans hbusy) Bool.false_ne_true,
    inTime_of_idle (h.phase_of_not_busy hb), h.index, h.pulses, h.notBoth,
    fun hd => (h.cleared hd).of_eq ⟨rfl, rfl, rfl, rfl, rfl, rfl, rfl⟩, h.idleIndex, h.reported⟩

/-- A tick that leaves the attempt running needs its place in time and its pulses only. -/
theorem State.Inv.of_running {s : State} {n e : Word} {p : PhaseCode} {b : BitVec 6} {f : PulseFile} (h : s.Inv)
    (hb : s.busy = true) (hr : State.Running { s with now := n, phase := p, t0 := e, bitidx := b, pulse := f })
    (hp : State.PulsesCaptured { s with now := n, phase := p, t0 := e, bitidx := b, pulse := f }) :
    State.Inv { s with now := n, phase := p, t0 := e, bitidx := b, pulse := f } :=
  ⟨h.numLines, hr.legal, ⟨fun _ => hr.notIdle, fun _ => hb⟩, h.line, hr.inTime, hr.index, hp, h.notBoth,
    fun hd => (h.cleared hd).of_eq ⟨rfl, rfl, rfl, rfl, rfl, rfl, rfl⟩,
    fun hidle => absurd (hidle.symm.trans hb) Bool.false_ne_true,
    fun hdone => absurd ((h.notBoth hb).symm.trans hdone) Bool.false_ne_true⟩

/-- An attempt that has ended needs a report that fits its outcome. -/
theorem inv_of_ended {s : State} (hn : Config.NumLinesOk s.numLines) (hp : s.phase = Phase.idle)
    (hb : s.busy = false) (hd : s.done = true) (hidx : s.bitidx.toNat ≤ 40) (hpulses : s.PulsesCaptured)
    (hrep : s.Reported) : s.Inv where
  numLines := hn
  phase := by simp [hp]
  busy := by simp [hb, hp]
  line := by simp [hb]
  inTime := inTime_of_idle hp
  index := indexOfPhase_of_idle hp hidx
  pulses := hpulses
  notBoth := by simp [hb]
  cleared := by simp [hd]
  idleIndex := by simp [hd]
  reported := fun _ => hrep

/-- An accepted START (40_host_interface.md R101). -/
theorem inv_beginAttempt {s : State} {l : LineIdx} (hn : Config.NumLinesOk s.numLines) (hl : l.toNat < s.numLines) :
    (s.beginAttempt l).Inv where
  numLines := hn
  phase := by simp
  busy := by simp
  line := fun _ => hl
  inTime := inTime_of_sinceEntry_eq_zero (sinceEntry_enterPhase _ _)
  index := indexOfPhase_of_zero (by simp) rfl
  pulses := pulsesCaptured_of_empty rfl rfl
  notBoth := fun _ => rfl
  cleared := fun _ => ⟨rfl, rfl, rfl, rfl, rfl, rfl, rfl⟩
  idleIndex := fun _ _ => rfl
  reported := by simp

/-- A reset cycle (70_reset_and_hazards.md R240). -/
theorem inv_resetStep {s : State} (hn : Config.NumLinesOk s.numLines) : s.resetStep.Inv where
  numLines := hn
  phase := by simp
  busy := by simp
  line := by simp
  inTime := inTime_of_idle rfl
  index := indexOfPhase_of_idle rfl (by simp)
  pulses := pulsesCaptured_of_empty rfl rfl
  notBoth := fun _ => rfl
  cleared := fun _ => ⟨rfl, rfl, rfl, rfl, rfl, rfl, rfl⟩
  idleIndex := fun _ _ => rfl
  reported := by simp

/-- Settles O46: the reset state is what a reset cycle makes of itself. -/
theorem resetSatisfiesInvariant : Obligations.ResetSatisfiesInvariant :=
  inv_resetStep (s := State.reset) (by decide)

/-! ### The ends of an attempt -/

/-- A Timeout reports its phase and nothing else (42_frame_decoder.md R168). -/
theorem State.Cleared.reported_timeout {s : State} {p : PhaseCode} (h : s.Cleared)
    (hw : 3 ≤ p.toNat ∧ p.toNat ≤ 7) (hb : s.bitidx.toNat < 40) : (s.advanceNow.raiseTimeout p).Reported :=
  ⟨h.frame, h.csumCalc, h.hum, h.temp, h.failbit, hw.1, hw.2, hb⟩

/-- An InvalidPulseWidth reports the lowest bad pulse and nothing else (42_frame_decoder.md R168). -/
theorem State.Cleared.reported_invalidPulseWidth {s : State} {k : Nat} (h : s.Cleared)
    (hk : firstInvalid s.pulse = some k) (hb : s.bitidx = 40) : (s.advanceNow.raiseInvalidPulseWidth k).Reported := by
  obtain ⟨hlt, -, -⟩ := firstInvalid_some hk
  have hbit : (BitVec.ofNat 6 k).toNat = k := by
    rw [BitVec.toNat_ofNat]
    omega
  exact ⟨hk.trans (congrArg some hbit.symm), hbit.trans_lt hlt, h.frame, h.csumCalc, h.hum, h.temp, h.failphase, hb⟩

/-- A decoded frame is reported with its checksum, and with its values when that agrees (42_frame_decoder.md R168). -/
theorem State.Cleared.reported_acceptFrame {s : State} (h : s.Cleared) (hv : firstInvalid s.pulse = none)
    (hb : s.bitidx = 40) : (s.advanceNow.acceptFrame (pack s.pulse)).Reported := by
  by_cases hc : checksum (pack s.pulse) = frameByte (pack s.pulse) 4
  · rw [acceptFrame_ok hc]
    exact ⟨hv, rfl, rfl, hc, rfl, rfl, h.failbit, h.failphase, hb⟩
  · rw [acceptFrame_mismatch hc]
    exact ⟨hv, rfl, rfl, hc, h.hum, h.temp, h.failbit, h.failphase, hb⟩

/-- While an attempt runs the results stand as START left them. -/
theorem State.Inv.cleared_of_busy {s : State} (h : s.Inv) (hb : s.busy = true) : s.Cleared :=
  h.cleared (h.notBoth hb)

/-! ### The steps -/

/-- No two phase codes name the same rule. -/
theorem decodePhase_injective {c d : PhaseCode} (h : decodePhase c = decodePhase d) : c = d := by
  revert c d
  decide

/-- A tick of a running attempt, by its effect. -/
theorem State.Inv.tick_of_busy {s t : State} (h : s.Inv) (hb : s.busy = true)
    (hexec : exec (decodePhase s.phase) s = .next t) : t.Inv := by
  have hcl : s.Cleared := h.cleared_of_busy hb
  have hrun (ht : t.busy = true) : t.Running := by
    obtain ⟨-, ⟨hend, -⟩ | ⟨hr, -⟩⟩ := movesOn_tick (h.running hb) hexec
    · exact absurd (hend.symm.trans ht) Bool.false_ne_true
    · exact hr
  obtain ⟨hle, hzero, -, hforty⟩ := h.index
  have hidx40 (hi : decodePhase s.phase = .phaseDecode) : s.bitidx = 40 :=
    hforty (decodePhase_injective (d := Phase.decode) hi)
  cases tickEffect_of_exec (decodePhase_isBus _) hexec with
  | stays => exact h.of_running hb (hrun hb) h.pulses
  | enters p => exact h.of_running hb (hrun hb) h.pulses
  | firstBit hi =>
    have hp : s.phase = Phase.respEnd := decodePhase_injective hi
    have hb0 : s.bitidx = 0 := hzero (by simp [hp])
    exact h.of_running hb (hrun hb) (h.pulses.of_eq hb0.symm rfl)
  | captures hi he hbit p =>
    have hp : s.phase = Phase.bitHigh := decodePhase_injective hi
    obtain ⟨-, -, hwait⟩ := h.inTime
    have hs : s.sinceEntry < Config.params.startLowUs := (hwait (by simp [hp])).trans_lt (by decide)
    exact h.of_running hb (hrun hb) (h.pulses.capture hbit (recordedDuration_bounds hs he) rfl rfl)
  | timesOut p hi hw =>
    obtain rfl := decodePhase_injective hi
    exact inv_of_ended h.numLines rfl rfl rfl hle h.pulses
      (hcl.reported_timeout hw (h.index.bitidx_lt hw))
  | findsInvalid hi k hk =>
    exact inv_of_ended h.numLines rfl rfl rfl hle h.pulses
      (hcl.reported_invalidPulseWidth hk (hidx40 hi))
  | decodes hi hv =>
    have hrep := hcl.reported_acceptFrame hv (hidx40 hi)
    have hf := acceptFrame_frame s.advanceNow (pack s.pulse)
    refine inv_of_ended ?_ ?_ ?_ ?_ ?_ ?_ hrep <;> rw [hf]
    · exact h.numLines
    · rfl
    · rfl
    · rfl
    · exact hle
    · exact h.pulses

/-- A tick, whatever the line does: in IDLE it only counts NOW. -/
theorem State.Inv.tick {s t : State} (h : s.Inv) (hexec : exec (decodePhase s.phase) s = .next t) : t.Inv := by
  cases hb : s.busy with
  | true => exact h.tick_of_busy hb hexec
  | false =>
    rw [h.phase_of_not_busy hb] at hexec
    exact exec_phaseIdle hexec ▸ h.with_line_now hb s.line (s.now + 1)

/-- A host operation. -/
theorem State.Inv.hostOperation {i : Instr} {s t : State} (h : s.Inv) (hi : i.isBus = true)
    (hexec : exec i s = .next t) : t.Inv := by
  obtain ⟨l, -, -, hl, rfl⟩ | ⟨l, e, hb, rfl⟩ | ⟨e, v, rfl⟩ := hostOperation_cases hi hexec
  · exact inv_beginAttempt h.numLines hl
  · exact (h.with_line_now hb l s.now).with_environment e s.lineIn s.inputs s.draws s.rdata
  · exact h.with_environment e s.lineIn s.inputs s.draws v

/-- Settles O47, by agent: reset begins from nothing, a host operation begins an attempt or leaves it as it is, and each
effect of a tick leads from the phase it belongs to into the next or to the report. -/
theorem everyStepKeepsInvariant : Obligations.EveryStepKeepsInvariant := by
  intro s t h hstep
  obtain ⟨access, rest, -, rfl⟩ | ⟨tr, rest, -, hexec⟩ | ⟨levels, d, hexec⟩ := step_cases hstep
  · obtain ⟨v, hv⟩ := accessInReset_eq { s with inputs := rest }.resetStep access
    rw [hv]
    exact (inv_resetStep (s := s) h.numLines).with_environment false s.lineIn rest s.draws v
  · exact (h.with_environment s.cmderr s.lineIn rest s.draws s.rdata).hostOperation
      (decodeTransaction_isBus tr) hexec
  · exact (h.with_environment s.cmderr levels s.inputs.tail d s.rdata).tick hexec

end Sys2Proof.Machine
end

section
/-! SUPPORT. The line the sampler reads and the pads it drives. -/

namespace Sys2Proof.Machine

/-! ### The selected line -/

/-- The same state with other levels on the pads. -/
def State.withLevels (s : State) (levels : LineLevels) : State := { s with lineIn := levels }

/-- An outcome with the pads' levels of its next state replaced. -/
abbrev mapLevels (levels : LineLevels) : Host.Outcome State Fault Refusal → Host.Outcome State Fault Refusal :=
  mapNext fun t => t.withLevels levels

/-- A timed phase does not read the line. -/
theorem timedPhase_withLevels (s : State) (levels : LineLevels) (bound : Nat) (p : PhaseCode) :
    (s.withLevels levels).timedPhase bound p = (s.timedPhase bound p).withLevels levels := by
  rcases Nat.lt_or_ge s.elapsed.toNat bound with he | he
  · rw [timedPhase_stay he, timedPhase_stay (s := s.withLevels levels) he]
    rfl
  · rw [timedPhase_end he, timedPhase_end (s := s.withLevels levels) he]
    rfl

/-- A wait phase reads the line in its sample alone, if the state change of its level does not read it either. -/
theorem waitPhase_withLevels {s : State} {levels : LineLevels} (hs : (s.withLevels levels).sample = s.sample)
    {p : PhaseCode} {lvl : Bool} {adv : State → Host.Outcome State Fault Refusal}
    (hadv : ∀ u : State, adv (u.withLevels levels) = mapLevels levels (adv u)) :
    (s.withLevels levels).waitPhase p lvl adv = mapLevels levels (s.waitPhase p lvl adv) := by
  rcases Nat.lt_or_ge Config.params.timeoutUs s.elapsed.toNat with he | he
  · rw [waitPhase_timeout he, waitPhase_timeout (s := s.withLevels levels) he]
    rfl
  · by_cases hv : s.sample = lvl
    · rw [waitPhase_advance he hv, waitPhase_advance (s := s.withLevels levels) he (hs.trans hv)]
      exact hadv s.advanceNow
    · rw [waitPhase_stay he hv, waitPhase_stay (s := s.withLevels levels) he (hs ▸ hv)]
      rfl

/-- A capture does not read the line. -/
theorem capturePulse_withLevels (s : State) (levels : LineLevels) (d : Byte) :
    (s.withLevels levels).capturePulse d = mapLevels levels (s.capturePulse d) := by
  rcases Nat.lt_or_ge s.bitidx.toNat 40 with hb | hb
  · rw [capturePulse_next hb, capturePulse_next (s := s.withLevels levels) hb]
    rfl
  · rw [capturePulse_fault hb, capturePulse_fault (s := s.withLevels levels) hb]
    rfl

/-- Accepting a frame does not read the line. -/
theorem acceptFrame_withLevels (s : State) (levels : LineLevels) (f : Frame) :
    (s.withLevels levels).acceptFrame f = (s.acceptFrame f).withLevels levels := by
  by_cases hc : checksum f = frameByte f 4
  · rw [acceptFrame_ok hc, acceptFrame_ok hc]
    rfl
  · rw [acceptFrame_mismatch hc, acceptFrame_mismatch hc]
    rfl

/-- DECODE does not read the line (42_frame_decoder.md R160). -/
theorem execPhaseDecode_withLevels (s : State) (levels : LineLevels) :
    execPhaseDecode (s.withLevels levels) = mapLevels levels (execPhaseDecode s) := by
  rw [execPhaseDecode, execPhaseDecode, show (s.withLevels levels).pulse = s.pulse from rfl]
  cases firstInvalid s.pulse with
  | some k => rfl
  | none => exact congrArg Host.Outcome.next (acceptFrame_withLevels s.advanceNow levels _)

/-- START does not read the line (40_host_interface.md R101 to R103). -/
theorem execStart_withLevels (s : State) (levels : LineLevels) (l : LineIdx) :
    execStart l (s.withLevels levels) = mapLevels levels (execStart l s) := by
  simp only [execStart, apply_ite (mapLevels levels)]
  rfl

/-- SETLINE does not read the line (40_host_interface.md R104). -/
theorem execSetline_withLevels (s : State) (levels : LineLevels) (l : LineIdx) :
    execSetline l (s.withLevels levels) = mapLevels levels (execSetline l s) := by
  simp only [execSetline, apply_ite (mapLevels levels)]
  rfl

/-- Every instruction reads the pads in its sample alone. -/
theorem exec_withLevels {s : State} {levels : LineLevels} (hs : (s.withLevels levels).sample = s.sample) (i : Instr) :
    exec i (s.withLevels levels) = mapLevels levels (exec i s) := by
  cases i with
  | start l => exact execStart_withLevels s levels l
  | setline l => exact execSetline_withLevels s levels l
  | wrIgn _ _ | rd _ | phaseIdle | phaseReserved _ => rfl
  | phaseStartLow | phaseRelease => exact congrArg Host.Outcome.next (timedPhase_withLevels s levels _ _)
  | phaseRespLow => exact waitPhase_withLevels (adv := fun u => .next (u.enterPhase Phase.respHigh)) hs fun _ => rfl
  | phaseRespHigh => exact waitPhase_withLevels (adv := fun u => .next (u.enterPhase Phase.respEnd)) hs fun _ => rfl
  | phaseRespEnd =>
    exact waitPhase_withLevels (adv := fun u => .next { u.enterPhase Phase.bitLow with bitidx := 0 }) hs fun _ => rfl
  | phaseBitLow => exact waitPhase_withLevels (adv := fun u => .next (u.enterPhase Phase.bitHigh)) hs fun _ => rfl
  | phaseBitHigh =>
    exact waitPhase_withLevels (adv := fun u => u.capturePulse (s.elapsed.extractLsb' 0 8)) hs
      fun u => capturePulse_withLevels u levels _
  | phaseDecode => exact execPhaseDecode_withLevels s levels

/-- Settles O32: levels that agree on the selected line give the same sample. -/
theorem onlySelectedLineIsRead : Obligations.OnlySelectedLineIsRead :=
  fun i _ _ hlevel => exec_withLevels hlevel i

/-! ### The pads -/

theorem lineOe_eq_true_iff {s : State} {l : LineIdx} :
    s.lineOe l = true ↔ l = s.line ∧ (s.phase = Phase.startLow ∨ s.phase = Phase.release) := by
  simp [State.lineOe]

theorem lineOut_eq_false_iff {s : State} {l : LineIdx} :
    s.lineOut l = false ↔ l = s.line ∧ s.phase = Phase.startLow := by
  simp [State.lineOut]

/-- Settles O35: the definitions of the two pads. -/
theorem padsFollowPhaseAndLine : Obligations.PadsFollowPhaseAndLine :=
  fun _ _ => ⟨lineOe_eq_true_iff, lineOut_eq_false_iff⟩

/-- Settles O57: a driven line is selected in a phase other than IDLE, where an attempt runs on an existing line. -/
theorem onlyLegalLineIsDriven : Obligations.OnlyLegalLineIsDriven := by
  intro s l h hoe
  obtain ⟨rfl, hp⟩ := lineOe_eq_true_iff.mp hoe
  have hb : s.busy = true := h.busy.mpr (by obtain hp | hp := hp <;> simp [hp])
  exact ⟨hb, rfl, h.line hb⟩

end Sys2Proof.Machine
end

section
/-! SUPPORT. What the registers show: the fields of the packed words, the values as numbers, and the reset values. -/

namespace Sys2Proof.Machine

/-- A field of a word is given by its bits. -/
theorem extractLsb'_eq_of_getLsbD {w n start : Nat} {x : BitVec w} {y : BitVec n}
    (h : ∀ k < n, x.getLsbD (start + k) = y.getLsbD k) : x.extractLsb' start n = y := by
  refine BitVec.eq_of_getLsbD_eq fun k hk => ?_
  rw [BitVec.getLsbD_extractLsb', h k hk]
  simp [hk]

/-- The fields of CTRL (10_state.md R30). -/
theorem ctrlWord_fields (s : State) :
    s.ctrlWord.extractLsb' 8 8 = s.line ∧ s.ctrlWord.extractLsb' 0 8 = 0 ∧ s.ctrlWord.extractLsb' 16 16 = 0 := by
  refine ⟨?_, ?_, ?_⟩ <;> refine extractLsb'_eq_of_getLsbD fun k hk => ?_ <;> rw [ctrlWord_getLsbD]
  · simp [hk, show 8 + k < 16 by omega]
  · simp; omega
  · simp

/-- The flags of STATUS (10_state.md R31). -/
theorem statusWord_flags (s : State) :
    s.statusWord.getLsbD 0 = s.busy ∧ s.statusWord.getLsbD 1 = s.done ∧ s.statusWord.getLsbD 4 = s.cmderr ∧
    s.statusWord.getLsbD 5 = (s.done && s.outcome == .ok) := by
  simp only [statusWord_getLsbD, valid_eq]
  exact ⟨rfl, rfl, rfl, rfl⟩

/-- The fields of STATUS wider than a bit, and its reserved bits (10_state.md R31), bit by bit. -/
theorem statusWord_fields (s : State) :
    s.statusWord.extractLsb' 2 2 = s.outcome.code ∧ s.statusWord.extractLsb' 6 2 = 0 ∧
    s.statusWord.extractLsb' 8 4 = s.phase ∧ s.statusWord.extractLsb' 12 4 = 0 ∧
    s.statusWord.extractLsb' 16 6 = s.bitidx ∧ s.statusWord.extractLsb' 22 10 = 0 := by
  refine ⟨?_, ?_, ?_, ?_, ?_, ?_⟩ <;> refine extractLsb'_eq_of_getLsbD fun k hk => ?_ <;>
    rw [statusWord_getLsbD] <;> interval_cases k <;> simp

/-- The fields of DIAG, and its reserved bits (10_state.md R32), bit by bit. -/
theorem diagWord_fields (s : State) :
    s.diagWord.extractLsb' 0 6 = s.failbit ∧ s.diagWord.extractLsb' 6 2 = 0 ∧
    s.diagWord.extractLsb' 8 4 = s.failphase ∧ s.diagWord.extractLsb' 12 4 = 0 ∧
    s.diagWord.extractLsb' 16 8 = s.csumCalc ∧ s.diagWord.extractLsb' 24 8 = 0 := by
  refine ⟨?_, ?_, ?_, ?_, ?_, ?_⟩ <;> refine extractLsb'_eq_of_getLsbD fun k hk => ?_ <;>
    rw [diagWord_getLsbD] <;> interval_cases k <;> simp

/-- Settles O7, by register: the bits of each packed word. -/
theorem controlFieldsReadAtTheirBits : Obligations.ControlFieldsReadAtTheirBits := by
  intro s
  obtain ⟨hline, hlow, hhigh⟩ := ctrlWord_fields s
  obtain ⟨hbusy, hdone, hcmderr, hvalid⟩ := statusWord_flags s
  obtain ⟨hout, h6, hphase, h12, hidx, h22⟩ := statusWord_fields s
  exact ⟨s.ctrlWord, s.statusWord, s.diagWord, rfl, rfl, rfl, hline, hlow, hhigh, hbusy, hdone, hout, hcmderr, hvalid,
    h6, hphase, h12, hidx, h22, diagWord_fields s⟩

/-- Settles O8: zero extension keeps the unsigned value, sign extension the signed one. -/
theorem valueRegistersReadAsNumbers : Obligations.ValueRegistersReadAsNumbers :=
  fun s => ⟨s.hum.setWidth 32, s.temp.signExtend 32, rfl, BitVec.toNat_setWidth_of_le (by decide), rfl,
    BitVec.toInt_signExtend_of_le (by decide)⟩

/-- At reset the pulse words read 0. -/
theorem pulseWord_reset (k : Nat) (hk : k < 10) : State.reset.pulseWord k hk = 0 := by
  simp [State.pulseWord, State.reset]

/-- At reset every register reads 0 but DIAG, which shows the FAILBIT of no report (10_state.md R50). -/
theorem readReg_reset (a : WordIdx) : State.reset.readReg a = if a = 2 then 0x0000003F else 0 := by
  rcases Nat.lt_or_ge a.toNat 8 with ha | ha
  · obtain ⟨k, rfl⟩ : ∃ k : Fin 8, a = BitVec.ofNat 6 k := ⟨⟨a.toNat, ha⟩, by simp⟩
    revert k
    decide
  · rw [readReg_of_ge ha, if_neg (by rintro rfl; exact absurd ha (by decide))]
    split_ifs with hk
    · exact pulseWord_reset _ (by omega)
    · rfl

/-- Settles O44: the elements from the reset state itself, the pads and the registers from what they show of it. -/
theorem resetValues : Obligations.ResetValues :=
  ⟨rfl, rfl, rfl, rfl, rfl, rfl, rfl, rfl, rfl, rfl, rfl, rfl, rfl, rfl, rfl,
    fun i hi => by simp [State.reset], fun l => by simp [State.lineOe, State.reset], readReg_reset⟩

end Sys2Proof.Machine
end

section
/-! SUPPORT. The host's accesses: what an operation leaves of a running attempt, and which bits of a transaction the
decoder reads. -/

namespace Sys2Proof.Machine

/-! ### A host operation during an attempt -/

/-- A START during an attempt is rejected (40_host_interface.md R102). -/
theorem execStart_of_busy {s : State} (l : LineIdx) (hb : s.busy = true) :
    execStart l s = .next { s with cmderr := true } := if_pos hb

/-- LINE is not written during an attempt (40_host_interface.md R104). -/
theorem execSetline_of_busy {s : State} (l : LineIdx) (hb : s.busy = true) : execSetline l s = .next s := if_pos hb

/-- Settles O9, by operation: a START sets CMDERR, a read holds its answer, the other two write nothing. -/
theorem hostNeverDisturbsAttempt : Obligations.HostNeverDisturbsAttempt := by
  intro i s hi hb
  cases i with
  | start l => exact ⟨true, s.rdata, execStart_of_busy l hb⟩
  | setline l => exact ⟨s.cmderr, s.rdata, execSetline_of_busy l hb⟩
  | wrIgn a w => exact ⟨s.cmderr, s.rdata, rfl⟩
  | rd a => exact ⟨s.cmderr, s.readReg a, rfl⟩
  | phaseIdle | phaseStartLow | phaseRelease | phaseRespLow | phaseRespHigh | phaseRespEnd | phaseBitLow
  | phaseBitHigh | phaseDecode | phaseReserved _ => cases hi

end Sys2Proof.Machine

namespace Sys2Proof

/-! ### The bits a transaction is read by -/

/-- A field of a field is a field of the word. -/
theorem extractLsb'_extractLsb' {w a n b m : Nat} (x : BitVec w) (h : b + m ≤ n) :
    (x.extractLsb' a n).extractLsb' b m = x.extractLsb' (a + b) m := by
  refine Machine.extractLsb'_eq_of_getLsbD fun k hk => ?_
  simp [hk, show b + k < n by omega, Nat.add_assoc]

/-- The word index is T[39:34]: `addr[1:0]` is no part of it (20_memory.md R62). -/
theorem Transaction.wordIdx_eq (t : Transaction) : t.wordIdx = t.extractLsb' 34 6 :=
  extractLsb'_extractLsb' t (by decide)

/-- The START bit is T[0] (30_encoding.md R82). -/
theorem Transaction.startBit_eq (t : Transaction) : t.startBit = t.getLsbD 0 := by
  simp [Transaction.startBit, Transaction.wdata]

/-- LINE is T[15:8] (30_encoding.md R82). -/
theorem Transaction.lineField_eq (t : Transaction) : t.lineField = t.extractLsb' 8 8 :=
  extractLsb'_extractLsb' t (by decide)

/-- The operation of a read transaction (30_encoding.md R81). -/
theorem decodeTransaction_of_read {t : Transaction} (h : t.we = false) : decodeTransaction t = .rd t.wordIdx := by
  simp [decodeTransaction, h]

/-- The operation of a CTRL write (30_encoding.md R81, R82). -/
theorem decodeTransaction_of_ctrl {t : Transaction} (h : t.we = true) (ha : t.wordIdx = 0) :
    decodeTransaction t = if t.startBit then .start t.lineField else .setline t.lineField := by
  cases hs : t.startBit <;> simp [decodeTransaction, h, ha, hs]

/-- The decoder reads a transaction by its direction, its word index and its write data alone. -/
theorem decodeTransaction_congr {t u : Transaction} (hwe : t.we = u.we) (ha : t.wordIdx = u.wordIdx)
    (hw : t.wdata = u.wdata) : decodeTransaction t = decodeTransaction u := by
  have hstart : t.startBit = u.startBit := by rw [Transaction.startBit, hw, Transaction.startBit]
  have hline : t.lineField = u.lineField := by rw [Transaction.lineField, hw, Transaction.lineField]
  simp only [decodeTransaction, hwe, ha, hw, hstart, hline]

/-- Settles O14, by kind of transaction: a read is its word index, a CTRL write its START bit and LINE, and any
transaction its word index and data. -/
theorem ignoredBitsSelectNothing : Obligations.IgnoredBitsSelectNothing := by
  intro t u hwe ha
  have hidx : t.wordIdx = u.wordIdx := by rw [t.wordIdx_eq, u.wordIdx_eq, ha]
  have hread (h : t.we = false) : decodeTransaction t = decodeTransaction u := by
    rw [decodeTransaction_of_read h, decodeTransaction_of_read (hwe.symm.trans h), hidx]
  refine ⟨hread, fun h0 hstart hline => ?_, decodeTransaction_congr hwe hidx⟩
  rw [← t.wordIdx_eq] at h0
  rw [← t.startBit_eq, ← u.startBit_eq] at hstart
  rw [← t.lineField_eq, ← u.lineField_eq] at hline
  cases h : t.we with
  | false => exact hread h
  | true =>
    rw [decodeTransaction_of_ctrl h h0, decodeTransaction_of_ctrl (hwe.symm.trans h) (hidx.symm.trans h0), hstart,
      hline]

end Sys2Proof
end

section
/-! SUPPORT. The encodings: the fields of a transaction built from its parts, the rows of the operation table, and the
codes that no state of the invariant holds. -/

namespace Sys2Proof

open Laws.TableRow (mk_getLsbD mk_wordAddr_getLsbD)

/-! ### The fields of a transaction built from its parts -/

@[simp] theorem Transaction.we_mk (we : Bool) (addr : BitVec 8) (w : Word) : (Transaction.mk we addr w).we = we :=
  mk_getLsbD we addr w 40

@[simp] theorem Transaction.wdata_mk (we : Bool) (addr : BitVec 8) (w : Word) :
    (Transaction.mk we addr w).wdata = w :=
  Machine.extractLsb'_eq_of_getLsbD fun k hk => by rw [mk_getLsbD, Nat.zero_add, if_pos hk]

@[simp] theorem Transaction.wordIdx_mk_wordAddr (we : Bool) (a : WordIdx) (w : Word) :
    (Transaction.mk we (wordAddr a) w).wordIdx = a := by
  rw [Transaction.wordIdx_eq]
  exact Machine.extractLsb'_eq_of_getLsbD (mk_wordAddr_getLsbD we a w)

@[simp] theorem Transaction.startBit_mk (we : Bool) (addr : BitVec 8) (w : Word) :
    (Transaction.mk we addr w).startBit = w.getLsbD 0 := by
  rw [Transaction.startBit, Transaction.wdata_mk]

@[simp] theorem Transaction.lineField_mk (we : Bool) (addr : BitVec 8) (w : Word) :
    (Transaction.mk we addr w).lineField = w.extractLsb' 8 8 := by
  rw [Transaction.lineField, Transaction.wdata_mk]

/-- The bits of a word index's address: `addr[1:0]` is 0 (20_memory.md R62). -/
theorem wordAddr_getLsbD (a : WordIdx) (k : Nat) :
    (wordAddr a).getLsbD k = (!decide (k < 2) && a.getLsbD (k - 2)) := by
  rw [wordAddr, BitVec.getLsbD_append, BitVec.getLsbD_zero]
  split_ifs with h <;> simp [h]

/-- The bits of the CTRL write data (30_encoding.md R82). -/
theorem ctrlData_getLsbD (l : LineIdx) (b : Bool) (k : Nat) :
    (ctrlData l b).getLsbD k = if k = 0 then b else (!decide (k < 8) && l.getLsbD (k - 8)) := by
  simp only [ctrlData, BitVec.getLsbD_append, BitVec.getLsbD_zero, BitVec.getLsbD_ofBool]
  rcases Nat.lt_or_ge k 8 with h | h
  · interval_cases k <;> simp
  · have hl : l.getLsbD (k - 8) = true → k - 8 < 8 := BitVec.lt_of_getLsbD
    simpa [show ¬ k < 1 by omega, show ¬ k - 1 < 7 by omega, Nat.sub_sub, Nat.not_lt.mpr h,
      show k ≠ 0 by omega] using hl

theorem ctrlData_startBit (l : LineIdx) (b : Bool) : (ctrlData l b).getLsbD 0 = b := ctrlData_getLsbD l b 0

theorem ctrlData_lineField (l : LineIdx) (b : Bool) : (ctrlData l b).extractLsb' 8 8 = l :=
  Machine.extractLsb'_eq_of_getLsbD fun k _ => by simp [ctrlData_getLsbD]

/-- The CTRL write data as the host computes it: LINE shifted to its place, plus the START bit (30_encoding.md R93). -/
theorem ctrlData_eq_shiftLeft_add (l : LineIdx) (b : Bool) :
    ctrlData l b = l.setWidth 32 <<< 8 + (BitVec.ofBool b).setWidth 32 := by
  have hdisjoint : l.setWidth 32 <<< 8 &&& (BitVec.ofBool b).setWidth 32 = 0#32 := by
    refine BitVec.eq_of_getLsbD_eq fun k hk => ?_
    rcases Nat.lt_or_ge k 8 with h | h
    · simp [h]
    · simp [show k ≠ 0 by omega]
  rw [BitVec.add_eq_or_of_and_eq_zero _ _ hdisjoint]
  refine BitVec.eq_of_getLsbD_eq fun k hk => ?_
  rw [ctrlData_getLsbD]
  split_ifs with h <;> simp [hk, h, Bool.and_comm]

/-! ### The operation a transaction selects -/

/-- The operation of a write outside CTRL (30_encoding.md R81). -/
theorem decodeTransaction_of_wrIgn {t : Transaction} (h : t.we = true) (ha : t.wordIdx ≠ 0) :
    decodeTransaction t = .wrIgn t.wordIdx t.wdata := by
  simp only [decodeTransaction, h, ha, false_and, and_false, if_false, if_true]

/-- Everything a transaction can select, with its operands (30_encoding.md R81, R83). -/
theorem decodeTransaction_cases (t : Transaction) :
    decodeTransaction t = .start t.lineField ∨ decodeTransaction t = .setline t.lineField ∨
    (t.wordIdx ≠ 0 ∧ decodeTransaction t = .wrIgn t.wordIdx t.wdata) ∨ decodeTransaction t = .rd t.wordIdx := by
  cases hwe : t.we with
  | false => exact .inr (.inr (.inr (decodeTransaction_of_read hwe)))
  | true =>
    by_cases ha : t.wordIdx = 0
    · rw [decodeTransaction_of_ctrl hwe ha]
      cases t.startBit with
      | true => exact .inl rfl
      | false => exact .inr (.inl rfl)
    · exact .inr (.inr (.inl ⟨ha, decodeTransaction_of_wrIgn hwe ha⟩))

/-- The operation of a CTRL write with the data of R82. -/
theorem decodeTransaction_mk_ctrlData (l : LineIdx) (b : Bool) :
    decodeTransaction (Transaction.mk true (wordAddr 0) (ctrlData l b)) = if b then .start l else .setline l := by
  rw [decodeTransaction_of_ctrl (Transaction.we_mk ..) (Transaction.wordIdx_mk_wordAddr ..), Transaction.startBit_mk,
    Transaction.lineField_mk, ctrlData_startBit, ctrlData_lineField]

/-- A code from 9 to 15 names no phase (30_encoding.md R84). -/
theorem decodePhase_of_reserved {c : PhaseCode} (h : 9 ≤ c.toNat) : decodePhase c = .phaseReserved c := by
  revert c
  decide

/-- Settles O11, by instruction: a bus operation by the fields of its transaction, a phase by its code. -/
theorem decodeOfEncodeIsIdentity : Obligations.DecodeOfEncodeIsIdentity := by
  intro i hwf
  cases i with
  | start l => exact decodeTransaction_mk_ctrlData l true
  | setline l => exact decodeTransaction_mk_ctrlData l false
  | wrIgn a w =>
    have ha : a ≠ 0 := by simpa [Instr.wf] using hwf
    have hidx : (Transaction.mk true (wordAddr a) w).wordIdx ≠ 0 := by rwa [Transaction.wordIdx_mk_wordAddr]
    exact (decodeTransaction_of_wrIgn (Transaction.we_mk ..) hidx).trans (by simp)
  | rd a => exact (decodeTransaction_of_read (Transaction.we_mk ..)).trans (by simp)
  | phaseIdle | phaseStartLow | phaseRelease | phaseRespLow | phaseRespHigh | phaseRespEnd | phaseBitLow
  | phaseBitHigh | phaseDecode => rfl
  | phaseReserved c => exact decodePhase_of_reserved (by simpa [Instr.wf] using hwf)

/-- Settles O13, by the operation selected: its operands are fields of the transaction. -/
theorem operandsComeFromTheirBits : Obligations.OperandsComeFromTheirBits := by
  intro t
  rw [← t.lineField_eq, ← t.wordIdx_eq]
  obtain h | h | ⟨-, h⟩ | h := decodeTransaction_cases t
  · simp [h]
  · simp [h]
  · simp [h, Transaction.wdata]
  · simp [h]

/-! ### The rows by mask and match -/

/-- Under the mask of the CTRL rows a transaction shows its direction, its word index and its START bit. -/
theorem and_ctrlMask (t : Transaction) :
    t &&& 0x1FC00000001 = Transaction.mk t.we (wordAddr t.wordIdx) ((BitVec.ofBool t.startBit).setWidth 32) := by
  refine BitVec.eq_of_getLsbD_eq fun k hk => ?_
  rw [BitVec.getLsbD_and, mk_getLsbD, wordAddr_getLsbD, t.wordIdx_eq, t.startBit_eq, Transaction.we]
  interval_cases k <;> simp

/-- A transaction lies in a CTRL row exactly when it is a write to CTRL with that row's START bit. -/
theorem and_ctrlMask_eq_iff (t : Transaction) (b : Bool) :
    t &&& 0x1FC00000001 = Transaction.mk true (wordAddr 0) ((BitVec.ofBool b).setWidth 32) ↔
      t.we = true ∧ t.wordIdx = 0 ∧ t.startBit = b := by
  rw [and_ctrlMask]
  constructor
  · intro h
    exact ⟨by simpa using congrArg Transaction.we h, by simpa using congrArg Transaction.wordIdx h,
      by simpa using congrArg Transaction.startBit h⟩
  · rintro ⟨hwe, ha, hs⟩
    rw [hwe, ha, hs]

/-- A transaction lies in the row of all writes or of the reads by its direction (30_encoding.md R81). -/
theorem and_weMask_eq_iff (t : Transaction) (b : Bool) :
    t &&& 0x10000000000 = Transaction.mk b 0 0 ↔ t.we = b := by
  have hmask : t &&& 0x10000000000 = Transaction.mk t.we 0 0 := by
    refine BitVec.eq_of_getLsbD_eq fun k hk => ?_
    rw [BitVec.getLsbD_and, mk_getLsbD, Transaction.we]
    interval_cases k <;> simp
  rw [hmask]
  exact ⟨fun h => by simpa using congrArg Transaction.we h, fun h => by rw [h]⟩

/-- The row of START (30_encoding.md R81). -/
theorem startRow_iff (t : Transaction) :
    t &&& 0x1FC00000001 = 0x10000000001 ↔ t.we = true ∧ t.wordIdx = 0 ∧ t.startBit = true :=
  and_ctrlMask_eq_iff t true

/-- The row of SETLINE (30_encoding.md R81). -/
theorem setlineRow_iff (t : Transaction) :
    t &&& 0x1FC00000001 = 0x10000000000 ↔ t.we = true ∧ t.wordIdx = 0 ∧ t.startBit = false :=
  and_ctrlMask_eq_iff t false

/-- Every transaction selects a well-formed operation. -/
theorem decodeTransaction_wf (t : Transaction) : (decodeTransaction t).wf = true := by
  obtain h | h | ⟨ha, h⟩ | h := decodeTransaction_cases t
  · rw [h]; rfl
  · rw [h]; rfl
  · rw [h]; exact bne_iff_ne.mpr ha
  · rw [h]; rfl

/-- Settles O12, by row: its mask shows the fields that select the operation. -/
theorem transactionsSelectByMaskAndMatch : Obligations.TransactionsSelectByMaskAndMatch := by
  intro t
  refine ⟨fun h => ?_, fun h => ?_, fun h hstart hset => ?_, fun h => ?_, Machine.decodeTransaction_isBus t,
    decodeTransaction_wf t⟩
  · obtain ⟨hwe, ha, hs⟩ := (startRow_iff t).mp h
    exact ⟨_, (decodeTransaction_of_ctrl hwe ha).trans (if_pos hs)⟩
  · obtain ⟨hwe, ha, hs⟩ := (setlineRow_iff t).mp h
    exact ⟨_, (decodeTransaction_of_ctrl hwe ha).trans (if_neg (by simp [hs]))⟩
  · have hwe : t.we = true := (and_weMask_eq_iff t true).mp h
    have ha : t.wordIdx ≠ 0 := by
      intro ha
      cases hs : t.startBit with
      | true => exact hstart ((startRow_iff t).mpr ⟨hwe, ha, hs⟩)
      | false => exact hset ((setlineRow_iff t).mpr ⟨hwe, ha, hs⟩)
    exact ⟨_, _, ha, decodeTransaction_of_wrIgn hwe ha⟩
  · exact ⟨_, decodeTransaction_of_read ((and_weMask_eq_iff t false).mp h)⟩

/-! ### The phase codes, the sample words, and the words the host computes -/

/-- Settles O15: nine codes by evaluation, the others as reserved. -/
theorem phaseCodesNameTheirPhases : Obligations.PhaseCodesNameTheirPhases :=
  ⟨rfl, rfl, rfl, rfl, rfl, rfl, rfl, rfl, rfl, fun _ => decodePhase_of_reserved⟩

/-- Settles O16, by running the decoder on each word. -/
theorem sampleWordsDecode : Obligations.SampleWordsDecode := by
  unfold Obligations.SampleWordsDecode
  decide

/-- Settles O60: the word the host computes is the data of a CTRL write (30_encoding.md R82). -/
theorem pseudoStartAndSelectEncode : Obligations.PseudoStartAndSelectEncode := by
  intro l
  refine ⟨⟨_, ?_, decodeTransaction_mk_ctrlData l true⟩, ⟨_, ?_, decodeTransaction_mk_ctrlData l false⟩⟩
  · rw [ctrlData_eq_shiftLeft_add]
    rfl
  · rw [ctrlData_eq_shiftLeft_add, show (BitVec.ofBool false).setWidth 32 = 0#32 from rfl, BitVec.add_zero]
    rfl

end Sys2Proof

namespace Sys2Proof.Machine

/-- Settles O28: the refusal is the meaning of the row. -/
theorem reservedPhaseIsRefused : Obligations.ReservedPhaseIsRefused :=
  fun _ _ => rfl

/-! ### The codes of the result registers -/

/-- FAILPHASE and FAILBIT by outcome, the table of 42_frame_decoder.md R168. -/
theorem State.Reported.failCodes {s : State} (h : s.Reported) :
    (s.outcome = .timeout ∧ (3 ≤ s.failphase.toNat ∧ s.failphase.toNat ≤ 7) ∧ s.failbit = noFailbit) ∨
    (s.outcome = .invalidPulseWidth ∧ s.failphase = 0 ∧ s.failbit.toNat < 40) ∨
    ((s.outcome = .ok ∨ s.outcome = .checksumMismatch) ∧ s.failphase = 0 ∧ s.failbit = noFailbit) := by
  rw [State.Reported] at h
  cases ho : s.outcome <;> simp only [ho] at h
  case timeout =>
    obtain ⟨-, -, -, -, hbit, hlow, hhigh, -⟩ := h
    exact .inl ⟨rfl, ⟨hlow, hhigh⟩, hbit⟩
  case invalidPulseWidth =>
    obtain ⟨-, hbit, -, -, -, -, hphase, -⟩ := h
    exact .inr (.inl ⟨rfl, hphase, hbit⟩)
  case ok =>
    obtain ⟨-, -, -, -, -, -, hbit, hphase, -⟩ := h
    exact .inr (.inr ⟨.inl rfl, hphase, hbit⟩)
  case checksumMismatch =>
    obtain ⟨-, -, -, -, -, -, hbit, hphase, -⟩ := h
    exact .inr (.inr ⟨.inr rfl, hphase, hbit⟩)

/-- FAILPHASE is 0 or a wait phase, and a wait phase exactly after a Timeout (30_encoding.md R86). -/
theorem State.Inv.failphase_codes {s : State} (h : s.Inv) :
    (s.failphase = 0 ∨ 3 ≤ s.failphase.toNat ∧ s.failphase.toNat ≤ 7) ∧
    (s.failphase ≠ 0 ↔ s.done = true ∧ s.outcome = .timeout) := by
  cases hd : s.done with
  | false => simp [(h.cleared hd).failphase]
  | true =>
    obtain ⟨ho, hwait, -⟩ | ⟨ho, hphase, -⟩ | ⟨ho, hphase, -⟩ := (h.reported hd).failCodes
    · have hne : s.failphase ≠ 0 := fun h0 => by simp [h0] at hwait
      exact ⟨.inr hwait, fun _ => ⟨rfl, ho⟩, fun _ => hne⟩
    · simp [ho, hphase]
    · obtain ho | ho := ho <;> simp [ho, hphase]

/-- FAILBIT is 0x3F or a bit index, and a bit index exactly after an InvalidPulseWidth (30_encoding.md R86). -/
theorem State.Inv.failbit_codes {s : State} (h : s.Inv) :
    (s.failbit = 0x3F ∨ s.failbit.toNat < 40) ∧
    (s.failbit ≠ 0x3F ↔ s.done = true ∧ s.outcome = .invalidPulseWidth) := by
  cases hd : s.done with
  | false => simp [(h.cleared hd).failbit]
  | true =>
    obtain ⟨ho, -, hbit⟩ | ⟨ho, -, hbit⟩ | ⟨ho, -, hbit⟩ := (h.reported hd).failCodes
    · simp [ho, hbit]
    · have hne : s.failbit ≠ 0x3F := fun h63 => by simp [h63] at hbit
      exact ⟨.inr hbit, fun _ => ⟨rfl, ho⟩, fun _ => hne⟩
    · obtain ho | ho := ho <;> simp [ho, hbit]

/-- No pulse exceeds TIMEOUT_US, captured or not (30_encoding.md R89). -/
theorem State.PulsesCaptured.le_timeoutUs {s : State} (h : s.PulsesCaptured) (i : Nat) (hi : i < 40) :
    s.pulse[i].toNat ≤ Config.params.timeoutUs := by
  obtain ⟨hcaptured, hempty⟩ := h i hi
  rcases Nat.lt_or_ge i s.bitidx.toNat with hlt | hge
  · exact (hcaptured hlt).2
  · simp [hempty hge]

/-- Settles O56: phase, bit index and pulses from the invariant, FAILPHASE and FAILBIT from what an attempt reports. -/
theorem reservedCodesNeverAppear : Obligations.ReservedCodesNeverAppear := by
  intro s h
  obtain ⟨hidx, -⟩ := h.index
  obtain ⟨hphase, htimeout⟩ := h.failphase_codes
  obtain ⟨hbit, hwidth⟩ := h.failbit_codes
  exact ⟨h.phase, hphase, htimeout, hbit, hwidth, hidx, h.pulses.le_timeoutUs⟩

end Sys2Proof.Machine
end

section
/-! SUPPORT. The host interface: what each host operation does and leaves unchanged, what a read answers, and how long
the results of an attempt stand and mean a measurement. -/

namespace Sys2Proof.Machine

/-! ### START and SETLINE, branch by branch -/

/-- A START on an existing line while no attempt runs is accepted (40_host_interface.md R101). -/
theorem execStart_of_accepted {s : State} {l : LineIdx} (hb : s.busy = false) (hl : l.toNat < s.numLines) :
    execStart l s = .next (s.beginAttempt l) := by
  rw [execStart, if_neg (by simp [hb]), if_pos hl]

/-- A START on a line that does not exist is rejected (40_host_interface.md R103). -/
theorem execStart_of_outOfRange {s : State} {l : LineIdx} (hb : s.busy = false) (hl : s.numLines ≤ l.toNat) :
    execStart l s = .next { s with line := l, cmderr := true } := by
  rw [execStart, if_neg (by simp [hb]), if_neg (Nat.not_lt.mpr hl)]

/-- SETLINE while no attempt runs (40_host_interface.md R104). -/
theorem execSetline_of_not_busy {s : State} (l : LineIdx) (hb : s.busy = false) :
    execSetline l s = .next { s with line := l } :=
  if_neg (by simp [hb])

/-- In IDLE every line is released (10_state.md R45). -/
theorem lineOe_of_idle {s : State} (hp : s.phase = Phase.idle) (k : LineIdx) : s.lineOe k = false := by
  simp [State.lineOe, hp]

/-- In IDLE every pad stands at 1 (10_state.md R45). -/
theorem lineOut_of_idle {s : State} (hp : s.phase = Phase.idle) (k : LineIdx) : s.lineOut k = true := by
  simp [State.lineOut, hp]

/-- Settles O1: the accepted branch of START, and START_LOW on the line it stores. -/
theorem startAcceptedBeginsAttempt : Obligations.StartAcceptedBeginsAttempt :=
  fun _ _ hb hl => ⟨_, execStart_of_accepted hb hl, rfl, rfl, lineOe_eq_true_iff.mpr ⟨rfl, .inl rfl⟩,
    lineOut_eq_false_iff.mpr ⟨rfl, rfl⟩⟩

/-- Settles O2: the busy branch of START. -/
theorem startWhileBusyOnlySetsCmderr : Obligations.StartWhileBusyOnlySetsCmderr :=
  fun l _ => execStart_of_busy l

/-- Settles O3: the branch of START for a line out of range; storing it does not leave IDLE. -/
theorem startOutOfRangeStoresLine : Obligations.StartOutOfRangeStoresLine :=
  fun _ _ hb hl => ⟨execStart_of_outOfRange hb hl, fun hp => lineOe_of_idle hp⟩

/-- Settles O4: the two branches of SETLINE; in IDLE the pads do not depend on the line. -/
theorem setlineWritesLineWhenIdle : Obligations.SetlineWritesLineWhenIdle := by
  intro l s
  refine ⟨execSetline_of_not_busy l, execSetline_of_busy l, fun hp k => ⟨?_, ?_⟩⟩
  · rw [lineOe_of_idle (s := { s with line := l }) hp, lineOe_of_idle hp]
  · rw [lineOut_of_idle (s := { s with line := l }) hp, lineOut_of_idle hp]

/-- Settles O5: the meaning of the row is to go on in the same state. -/
theorem ignoredWriteChangesNothing : Obligations.IgnoredWriteChangesNothing :=
  fun _ _ _ => rfl

/-! ### What a read answers -/

/-- Settles O6, by word index: the answer is the register's value. -/
theorem readAnswersRegister : Obligations.ReadAnswersRegister := by
  intro a s
  refine ⟨s.readReg a, rfl, ?ctrl, ?status, ?diag, ?frameW0, ?frameW1, ?humidity, ?temperature, ?now, ?reserved,
    ?pulse, ?above⟩
  case ctrl => rintro rfl; exact readReg_ctrl s
  case status => rintro rfl; rw [← valid_eq]; exact readReg_status s
  case diag => rintro rfl; exact readReg_diag s
  case frameW0 => rintro rfl; exact readReg_frameW0 s
  case frameW1 => rintro rfl; exact (readReg_frameW1 s).trans (BitVec.setWidth_eq_append (by decide))
  case humidity => rintro rfl; exact (readReg_humidity s).trans (BitVec.setWidth_eq_append (by decide))
  case temperature => rintro rfl; exact readReg_temperature s
  case now => rintro rfl; exact readReg_now s
  case reserved => exact fun ⟨hlow, hhigh⟩ => readReg_reserved hlow (.inl (by omega))
  case pulse => exact fun k hk ha => readReg_pulse hk ha
  case above => exact fun ha => readReg_reserved (by omega) (.inr ha)

/-! ### The frame of the host operations -/

/-- No START writes NOW, the host's answer or what belongs to the other agents, accepted or not. -/
theorem execStart_frame {s t : State} {l : LineIdx} (h : execStart l s = .next t) :
    t.now = s.now ∧ t.numLines = s.numLines ∧ t.lineIn = s.lineIn ∧ t.inputs = s.inputs ∧ t.draws = s.draws ∧
    t.rdata = s.rdata := by
  rcases Bool.eq_false_or_eq_true s.busy with hb | hb
  · rw [execStart_of_busy l hb] at h
    cases h
    exact ⟨rfl, rfl, rfl, rfl, rfl, rfl⟩
  · rcases Nat.lt_or_ge l.toNat s.numLines with hl | hl
    · rw [execStart_of_accepted hb hl] at h
      cases h
      exact ⟨rfl, rfl, rfl, rfl, rfl, rfl⟩
    · rw [execStart_of_outOfRange hb hl] at h
      cases h
      exact ⟨rfl, rfl, rfl, rfl, rfl, rfl⟩

/-- SETLINE writes LINE at most. -/
theorem execSetline_frame {s t : State} {l : LineIdx} (h : execSetline l s = .next t) :
    t = { s with line := t.line } := by
  rcases Bool.eq_false_or_eq_true s.busy with hb | hb
  · rw [execSetline_of_busy l hb] at h
    cases h
    rfl
  · rw [execSetline_of_not_busy l hb] at h
    cases h
    rfl

/-- Settles O10, by operation: the frames of START and SETLINE, and the meanings of the other two. -/
theorem hostOperationFrame : Obligations.HostOperationFrame := by
  intro i s t hi h
  cases i with
  | start l =>
    obtain ⟨hnow, hnum, hlevels, hinputs, hdraws, hrdata⟩ := execStart_frame h
    exact ⟨hnow, hnum, hlevels, hinputs, hdraws, fun _ => hrdata, fun hne => absurd rfl (hne l),
      fun hne => absurd rfl (hne l)⟩
  | setline l =>
    rw [execSetline_frame h]
    exact ⟨rfl, rfl, rfl, rfl, rfl, fun _ => rfl, fun _ => rfl, fun _ hne => absurd rfl (hne l)⟩
  | wrIgn a w =>
    cases h
    exact ⟨rfl, rfl, rfl, rfl, rfl, fun _ => rfl, fun _ => rfl, fun _ _ => rfl⟩
  | rd a =>
    cases h
    exact ⟨rfl, rfl, rfl, rfl, rfl, fun hne => absurd rfl (hne a), fun _ => rfl, fun _ _ => rfl⟩
  | phaseIdle | phaseStartLow | phaseRelease | phaseRespLow | phaseRespHigh | phaseRespEnd | phaseBitLow
  | phaseBitHigh | phaseDecode | phaseReserved _ => cases hi

/-! ### How long results stand -/

/-- The results are a matter neither of LINE, NOW and CMDERR nor of the model's own fields. -/
theorem State.sameResults_with (s : State) (l : LineIdx) (n : Word) (e : Bool) (levels : LineLevels)
    (ins : List Input) (d : Nat) (v : Word) :
    s.SameResults { s with line := l, now := n, cmderr := e, lineIn := levels, inputs := ins, draws := d, rdata := v } :=
  ⟨rfl, rfl, rfl, rfl, rfl, rfl, rfl, rfl, rfl, rfl, rfl, rfl⟩

/-- Settles O52, by agent: of the host operations only an accepted START writes the results, and a tick in IDLE only
counts NOW. -/
theorem resultsStayUntilNextStart : Obligations.ResultsStayUntilNextStart := by
  intro s t hp _ hstep hreset hstart
  obtain ⟨access, rest, hin, -⟩ | ⟨tr, rest, hin, h⟩ | ⟨levels, d, h⟩ := step_cases hstep
  · exact absurd hin (hreset access rest)
  · obtain ⟨l, hi, -, hl, -⟩ | ⟨l, e, -, rfl⟩ | ⟨e, v, rfl⟩ := hostOperation_cases (decodeTransaction_isBus tr) h
    · exact absurd hl (Nat.not_lt.mpr (hstart tr rest l hin hi))
    · exact s.sameResults_with ..
    · exact s.sameResults_with ..
  · rw [congrArg decodePhase hp] at h
    rw [exec_phaseIdle h]
    exact s.sameResults_with ..

/-! ### When the values are a measurement -/

/-- VALID is 1 exactly after an attempt that ended with Ok (10_state.md R31). -/
theorem valid_eq_true_iff {s : State} : s.valid = true ↔ s.done = true ∧ s.outcome = .ok := by
  simp [valid_eq]

/-- After an Ok the values are those of the captured frame, which passed (42_frame_decoder.md R168). -/
theorem State.Reported.measurement {s : State} (h : s.Reported) (ho : s.outcome = .ok) :
    s.hum = humidity (pack s.pulse) ∧ s.temp = temperature (pack s.pulse) ∧
    checksum (pack s.pulse) = frameByte (pack s.pulse) 4 ∧ firstInvalid s.pulse = none := by
  simp only [State.Reported, ho] at h
  obtain ⟨hzone, hframe, -, hsum, hhum, htemp, -⟩ := h
  rw [hframe] at hsum hhum htemp
  exact ⟨hhum, htemp, hsum, hzone⟩

/-- After any other outcome there are no values (42_frame_decoder.md R168). -/
theorem State.Reported.values_eq_zero {s : State} (h : s.Reported) (ho : s.outcome ≠ .ok) :
    s.hum = 0 ∧ s.temp = 0 := by
  rw [State.Reported] at h
  cases hout : s.outcome <;> simp only [hout] at h
  case ok => exact absurd hout ho
  case timeout =>
    obtain ⟨-, -, hhum, htemp, -⟩ := h
    exact ⟨hhum, htemp⟩
  case invalidPulseWidth =>
    obtain ⟨-, -, -, -, hhum, htemp, -⟩ := h
    exact ⟨hhum, htemp⟩
  case checksumMismatch =>
    obtain ⟨-, -, -, -, hhum, htemp, -⟩ := h
    exact ⟨hhum, htemp⟩

/-- Settles O55: VALID is 1 after an Ok alone, and the values are 0 before a report and after any other. -/
theorem validMeansMeasurement : Obligations.ValidMeansMeasurement := by
  intro s h
  refine ⟨fun hv => ?_, fun hv => ?_⟩
  · obtain ⟨hd, ho⟩ := valid_eq_true_iff.mp hv
    obtain ⟨hhum, htemp, hsum, hzone⟩ := (h.reported hd).measurement ho
    exact ⟨hhum, htemp, hsum, firstInvalid_none hzone⟩
  · cases hd : s.done with
    | false => exact ⟨(h.cleared hd).hum, (h.cleared hd).temp⟩
    | true =>
      refine (h.reported hd).values_eq_zero fun ho => ?_
      exact absurd (hv.symm.trans (valid_eq_true_iff.mpr ⟨hd, ho⟩)) Bool.false_ne_true

end Sys2Proof.Machine
end

section
/-! SUPPORT. The pulse sampler: what a tick of each phase does, branch by branch, what it does not depend on, and how
long START_LOW lasts. -/

namespace Sys2Proof.Machine

/-! ### The ticks that do not wait for the line -/

/-- Settles O19: the meaning of the row is to count NOW, and IDLE releases every line. -/
theorem idleTickOnlyCountsNow : Obligations.IdleTickOnlyCountsNow :=
  fun _ => ⟨rfl, lineOe_of_idle⟩

/-- Settles O20: the two branches of a timed phase of 2000 ticks. -/
theorem startLowTick : Obligations.StartLowTick :=
  fun _ => ⟨fun he => congrArg Host.Outcome.next (timedPhase_end he),
    fun he => congrArg Host.Outcome.next (timedPhase_stay he)⟩

/-- Settles O21: the two branches of a timed phase of one tick. -/
theorem releaseTick : Obligations.ReleaseTick :=
  fun _ => ⟨fun he => congrArg Host.Outcome.next (timedPhase_end he),
    fun he => congrArg Host.Outcome.next (timedPhase_stay he)⟩

/-! ### The ticks of the wait phases -/

/-- The three branches of a wait phase, by the watchdog and the level (41_pulse_sampler.md R122). -/
theorem waitPhase_branches (s : State) (p : PhaseCode) (lvl : Bool)
    (adv : State → Host.Outcome State Fault Refusal) :
    (Config.params.timeoutUs < s.elapsed.toNat → s.waitPhase p lvl adv = .next (s.advanceNow.raiseTimeout p)) ∧
    (s.elapsed.toNat ≤ Config.params.timeoutUs → s.sample = lvl → s.waitPhase p lvl adv = adv s.advanceNow) ∧
    (s.elapsed.toNat ≤ Config.params.timeoutUs → s.sample = !lvl → s.waitPhase p lvl adv = .next s.advanceNow) :=
  ⟨waitPhase_timeout, waitPhase_advance, fun he hv => waitPhase_stay he (by simp [hv])⟩

/-- Settles O22: RESP_LOW awaits a low and enters RESP_HIGH. -/
theorem respLowTick : Obligations.RespLowTick :=
  fun s => waitPhase_branches s Phase.respLow false fun u => .next (u.enterPhase Phase.respHigh)

/-- Settles O23: RESP_HIGH awaits a high and enters RESP_END. -/
theorem respHighTick : Obligations.RespHighTick :=
  fun s => waitPhase_branches s Phase.respHigh true fun u => .next (u.enterPhase Phase.respEnd)

/-- Settles O24: RESP_END awaits a low and enters BIT_LOW of bit 0. -/
theorem respEndTick : Obligations.RespEndTick :=
  fun s => waitPhase_branches s Phase.respEnd false fun u => .next { u.enterPhase Phase.bitLow with bitidx := 0 }

/-- Settles O25: BIT_LOW awaits a high and enters BIT_HIGH. -/
theorem bitLowTick : Obligations.BitLowTick :=
  fun s => waitPhase_branches s Phase.bitLow true fun u => .next (u.enterPhase Phase.bitHigh)

/-- The three branches of BIT_HIGH: a low in time is a capture of the low 8 bits of `e` (41_pulse_sampler.md R132). -/
theorem execPhaseBitHigh_branches (s : State) :
    (Config.params.timeoutUs < s.elapsed.toNat →
      execPhaseBitHigh s = .next (s.advanceNow.raiseTimeout Phase.bitHigh)) ∧
    (s.elapsed.toNat ≤ Config.params.timeoutUs → s.sample = false →
      execPhaseBitHigh s = s.advanceNow.capturePulse (s.elapsed.extractLsb' 0 8)) ∧
    (s.elapsed.toNat ≤ Config.params.timeoutUs → s.sample = true → execPhaseBitHigh s = .next s.advanceNow) :=
  waitPhase_branches s Phase.bitHigh false fun u => u.capturePulse (s.elapsed.extractLsb' 0 8)

/-- The next bit index and the next phase of a capture, as numbers (41_pulse_sampler.md R132). -/
theorem capturePulse_eq {s : State} (d : Byte) (hb : s.bitidx.toNat < 40) :
    s.capturePulse d = .next { s with
      pulse := s.pulse.set s.bitidx.toNat d hb
      bitidx := BitVec.ofNat 6 (s.bitidx.toNat + 1)
      phase := if s.bitidx.toNat = 39 then Phase.decode else Phase.bitLow
      t0 := s.now } := by
  have hidx : s.bitidx + 1 = BitVec.ofNat 6 (s.bitidx.toNat + 1) := by simp [BitVec.ofNat_add]
  have hlast : s.bitidx.toNat + 1 = Config.params.nbits ↔ s.bitidx.toNat = 39 := Nat.add_right_cancel_iff (n := 1)
  rw [capturePulse_next hb, hidx]
  simp only [hlast]
  rfl

/-- Settles O26: BIT_HIGH awaits a low and captures its pulse. -/
theorem bitHighTick : Obligations.BitHighTick := by
  intro s
  obtain ⟨htimeout, hcapture, hstay⟩ := execPhaseBitHigh_branches s
  exact ⟨htimeout, fun he hv hb => (hcapture he hv).trans (capturePulse_eq (s := s.advanceNow) _ hb), hstay⟩

/-- Settles O27: the capture of BIT_HIGH has no place for this bit. -/
theorem captureOutsidePulseFileFaults : Obligations.CaptureOutsidePulseFileFaults := by
  intro s he hv hb
  obtain ⟨-, hcapture, -⟩ := execPhaseBitHigh_branches s
  exact (hcapture he hv).trans (capturePulse_fault (s := s.advanceNow) hb)

/-- The codes of the wait phases, one by one. -/
theorem waitCode_cases {p : PhaseCode} (hw : 3 ≤ p.toNat ∧ p.toNat ≤ 7) :
    p = Phase.respLow ∨ p = Phase.respHigh ∨ p = Phase.respEnd ∨ p = Phase.bitLow ∨ p = Phase.bitHigh := by
  revert p
  decide

/-- Past its bound the watchdog of every wait phase ends the attempt with its own code (41_pulse_sampler.md R124). -/
theorem exec_wait_timeout {p : PhaseCode} (hw : 3 ≤ p.toNat ∧ p.toNat ≤ 7) {s : State}
    (he : Config.params.timeoutUs < s.elapsed.toNat) :
    exec (decodePhase p) s = .next (s.advanceNow.raiseTimeout p) := by
  obtain rfl | rfl | rfl | rfl | rfl := waitCode_cases hw
  · exact (respLowTick s).left he
  · exact (respHighTick s).left he
  · exact (respEndTick s).left he
  · exact (bitLowTick s).left he
  · exact (bitHighTick s).left he

/-- Settles O29: the watchdog of the phase, and IDLE, in which the attempt ends, releases every line. -/
theorem watchdogEndsAttemptFirst : Obligations.WatchdogEndsAttemptFirst :=
  fun _ _ hlow hhigh he => ⟨_, exec_wait_timeout ⟨hlow, hhigh⟩ he, rfl, lineOe_of_idle rfl⟩

/-! ### The line outside the wait phases -/

/-- No host operation reads the pads (40_host_interface.md R101 to R106). -/
theorem exec_withLevels_of_isBus {i : Instr} (hi : i.isBus = true) (s : State) (levels : LineLevels) :
    exec i (s.withLevels levels) = mapLevels levels (exec i s) := by
  cases i with
  | start l => exact execStart_withLevels s levels l
  | setline l => exact execSetline_withLevels s levels l
  | wrIgn _ _ | rd _ => rfl
  | phaseIdle | phaseStartLow | phaseRelease | phaseRespLow | phaseRespHigh | phaseRespEnd | phaseBitLow
  | phaseBitHigh | phaseDecode | phaseReserved _ => cases hi

/-- Settles O33: a host operation, IDLE, the two timed phases and DECODE, none of which samples the line. -/
theorem lineIgnoredOutsideWaitPhases : Obligations.LineIgnoredOutsideWaitPhases := by
  intro i s levels hi
  obtain hbus | rfl | rfl | rfl | rfl := hi
  · exact exec_withLevels_of_isBus hbus s levels
  · rfl
  · exact congrArg Host.Outcome.next (timedPhase_withLevels s levels _ _)
  · exact congrArg Host.Outcome.next (timedPhase_withLevels s levels _ _)
  · exact execPhaseDecode_withLevels s levels

/-! ### Moving NOW and the entry stamp together -/

/-- An outcome with the time of its next state moved. -/
abbrev mapShift (k : Word) : Host.Outcome State Fault Refusal → Host.Outcome State Fault Refusal :=
  mapNext fun t => t.shiftTime k

/-- `e` is a difference, so it does not see the move (41_pulse_sampler.md R136). -/
@[simp] theorem elapsed_shiftTime (s : State) (k : Word) : (s.shiftTime k).elapsed = s.elapsed := by
  simp only [State.elapsed, State.shiftTime]
  bv_omega

@[simp] theorem advanceNow_shiftTime (s : State) (k : Word) :
    (s.shiftTime k).advanceNow = s.advanceNow.shiftTime k := by
  simp only [State.advanceNow, State.shiftTime, BitVec.add_assoc, BitVec.add_comm k]

/-- A timed phase sees time in `e` alone. -/
theorem timedPhase_shiftTime (s : State) (k : Word) (bound : Nat) (p : PhaseCode) :
    (s.shiftTime k).timedPhase bound p = (s.timedPhase bound p).shiftTime k := by
  simp only [State.timedPhase, elapsed_shiftTime, advanceNow_shiftTime, apply_ite (State.shiftTime · k)]
  rfl

/-- A wait phase sees time in `e` alone, if the state change of its level moves with it. -/
theorem waitPhase_shiftTime {s : State} {k : Word} {p : PhaseCode} {lvl : Bool}
    {adv : State → Host.Outcome State Fault Refusal}
    (hadv : ∀ u : State, adv (u.shiftTime k) = mapShift k (adv u)) :
    (s.shiftTime k).waitPhase p lvl adv = mapShift k (s.waitPhase p lvl adv) := by
  simp only [State.waitPhase, elapsed_shiftTime, advanceNow_shiftTime, hadv, apply_ite (mapShift k)]
  rfl

/-- A capture moves with the time it stamps. -/
theorem capturePulse_shiftTime (s : State) (k : Word) (d : Byte) :
    (s.shiftTime k).capturePulse d = mapShift k (s.capturePulse d) := by
  rcases Nat.lt_or_ge s.bitidx.toNat 40 with hb | hb
  · rw [capturePulse_next hb, capturePulse_next (s := s.shiftTime k) hb]
    rfl
  · rw [capturePulse_fault hb, capturePulse_fault (s := s.shiftTime k) hb]
    rfl

/-- Accepting a frame does not see time. -/
theorem acceptFrame_shiftTime (s : State) (k : Word) (f : Frame) :
    (s.shiftTime k).acceptFrame f = (s.acceptFrame f).shiftTime k := by
  by_cases hc : checksum f = frameByte f 4
  · rw [acceptFrame_ok hc, acceptFrame_ok hc]
    rfl
  · rw [acceptFrame_mismatch hc, acceptFrame_mismatch hc]
    rfl

/-- DECODE does not see time. -/
theorem execPhaseDecode_shiftTime (s : State) (k : Word) :
    execPhaseDecode (s.shiftTime k) = mapShift k (execPhaseDecode s) := by
  rw [execPhaseDecode, execPhaseDecode, show (s.shiftTime k).pulse = s.pulse from rfl, advanceNow_shiftTime]
  cases firstInvalid s.pulse with
  | some i => rfl
  | none => exact congrArg Host.Outcome.next (acceptFrame_shiftTime s.advanceNow k _)

/-- START stamps the moved NOW, or leaves the time as it is (40_host_interface.md R101 to R103). -/
theorem execStart_shiftTime (s : State) (k : Word) (l : LineIdx) :
    execStart l (s.shiftTime k) = mapShift k (execStart l s) := by
  simp only [execStart, apply_ite (mapShift k)]
  rfl

/-- SETLINE does not see time (40_host_interface.md R104). -/
theorem execSetline_shiftTime (s : State) (k : Word) (l : LineIdx) :
    execSetline l (s.shiftTime k) = mapShift k (execSetline l s) := by
  simp only [execSetline, apply_ite (mapShift k)]
  rfl

/-- No register but NOW shows the time (40_host_interface.md R106). -/
theorem readReg_shiftTime (s : State) (k : Word) {a : WordIdx} (ha : a ≠ 7) :
    (s.shiftTime k).readReg a = s.readReg a := by
  simp only [State.readReg, if_neg ha]
  rfl

/-- Settles O34, by instruction: rules see time in `e` alone and stamp NOW, and no read but that of NOW shows it. -/
theorem wrapOfNowDisturbsNothing : Obligations.WrapOfNowDisturbsNothing := by
  intro i s k hi
  cases i with
  | start l => exact execStart_shiftTime s k l
  | setline l => exact execSetline_shiftTime s k l
  | wrIgn _ _ | phaseReserved _ => rfl
  | rd a =>
    have ha : a ≠ 7 := fun h => hi (congrArg Instr.rd h)
    exact congrArg (fun v => Host.Outcome.next { s.shiftTime k with rdata := v }) (readReg_shiftTime s k ha)
  | phaseIdle => exact congrArg Host.Outcome.next (advanceNow_shiftTime s k)
  | phaseStartLow | phaseRelease => exact congrArg Host.Outcome.next (timedPhase_shiftTime s k _ _)
  | phaseRespLow => exact waitPhase_shiftTime (adv := fun u => .next (u.enterPhase Phase.respHigh)) fun _ => rfl
  | phaseRespHigh => exact waitPhase_shiftTime (adv := fun u => .next (u.enterPhase Phase.respEnd)) fun _ => rfl
  | phaseRespEnd =>
    exact waitPhase_shiftTime (adv := fun u => .next { u.enterPhase Phase.bitLow with bitidx := 0 }) fun _ => rfl
  | phaseBitLow => exact waitPhase_shiftTime (adv := fun u => .next (u.enterPhase Phase.bitHigh)) fun _ => rfl
  | phaseBitHigh =>
    change (s.shiftTime k).waitPhase Phase.bitHigh false
      (fun u => u.capturePulse ((s.shiftTime k).elapsed.extractLsb' 0 8)) = _
    rw [elapsed_shiftTime]
    exact waitPhase_shiftTime (adv := fun u => u.capturePulse (s.elapsed.extractLsb' 0 8))
      fun u => capturePulse_shiftTime u k _
  | phaseDecode => exact execPhaseDecode_shiftTime s k

/-! ### How long START_LOW lasts -/

/-- One step more after `k` steps. -/
theorem run_succ_of_run {M : Host.Core} {k : Nat} :
    ∀ {s t : M.State}, M.run k s = .next t → M.run (k + 1) s = M.step t := by
  induction k with
  | zero =>
    rintro s t h
    obtain rfl := Host.Outcome.next.inj h
    rw [Host.Core.run]
    cases M.step s <;> rfl
  | succ k ih =>
    intro s t h
    rw [Host.Core.run] at h ⊢
    cases hs : M.step s with
    | next u =>
      rw [hs] at h
      exact ih h
    | fault r | refused r =>
      rw [hs] at h
      cases h

/-- The state `t` stands in START_LOW with `k` ticks counted since `u`, in which the phase was entered. -/
structure StartLowFor (u : State) (k : Nat) (t : State) : Prop where
  phase : t.phase = Phase.startLow
  line : t.line = u.line
  t0 : t.t0 = u.now
  now : t.now = u.now + BitVec.ofNat 32 k
  onlyTicks : t.OnlyTicks

/-- After `k` ticks of START_LOW `e` of the next one is `k + 1` (41_pulse_sampler.md R120). -/
theorem StartLowFor.elapsed_toNat {u t : State} {k : Nat} (h : StartLowFor u k t) (hk : k < 2000) :
    t.elapsed.toNat = k + 1 := by
  rw [State.elapsed, h.now, h.t0]
  bv_omega

/-- With only ticks to come the step from START_LOW is its timed phase, whatever the line shows. -/
theorem step_of_startLow {s : State} (hp : s.phase = Phase.startLow) (ht : s.OnlyTicks) :
    ∃ levels d, step s = .next (State.timedPhase
      { s with inputs := s.inputs.tail, lineIn := levels, draws := d } Config.params.startLowUs Phase.release) := by
  obtain ⟨levels, d, hstep⟩ := step_of_onlyTicks ht
  exact ⟨levels, d, by rw [hstep, hp]; rfl⟩

/-- Before the 2000th tick START_LOW goes on. -/
theorem StartLowFor.step_stays {u t : State} {k : Nat} (h : StartLowFor u k t) (hk : k + 1 < 2000) :
    ∃ v, step t = .next v ∧ StartLowFor u (k + 1) v := by
  obtain ⟨levels, d, hstep⟩ := step_of_startLow h.phase h.onlyTicks
  have he : t.elapsed.toNat < Config.params.startLowUs := (h.elapsed_toNat (by omega)).trans_lt hk
  have hnow : t.now + 1 = u.now + BitVec.ofNat 32 (k + 1) := by
    rw [h.now, BitVec.ofNat_add, BitVec.add_assoc]
    rfl
  exact ⟨_, hstep.trans (congrArg _ (timedPhase_stay he)), h.phase, h.line, h.t0, hnow,
    fun i hi => h.onlyTicks i (List.mem_of_mem_tail hi)⟩

/-- At the 2000th tick START_LOW ends (41_pulse_sampler.md R126). -/
theorem StartLowFor.step_ends {u t : State} (h : StartLowFor u 1999 t) :
    ∃ v, step t = .next v ∧ v.phase = Phase.release ∧ v.t0 = u.now + 2000 := by
  obtain ⟨levels, d, hstep⟩ := step_of_startLow h.phase h.onlyTicks
  have he : Config.params.startLowUs ≤ t.elapsed.toNat := (h.elapsed_toNat (by decide)).ge
  have hnow : t.now + 1 = u.now + 2000 := by rw [h.now, BitVec.add_assoc]; rfl
  exact ⟨_, hstep.trans (congrArg _ (timedPhase_end he)), rfl, hnow⟩

/-- From the entry of START_LOW, with only ticks to come, each of the first 1999 ticks stays there. -/
theorem run_startLowFor {u : State} (h : StartLowFor u 0 u) (k : Nat) :
    k < 2000 → ∃ t, Sys2Proof.core.run k u = .next t ∧ StartLowFor u k t := by
  induction k with
  | zero => exact fun _ => ⟨u, rfl, h⟩
  | succ k ih =>
    intro hk
    obtain ⟨t, hrun, ht⟩ := ih (by omega)
    obtain ⟨v, hstep, hv⟩ := ht.step_stays hk
    exact ⟨v, (run_succ_of_run hrun).trans hstep, hv⟩

/-- An accepted START enters START_LOW. -/
theorem startLowFor_beginAttempt {s : State} (l : LineIdx) (ht : s.OnlyTicks) :
    StartLowFor (s.beginAttempt l) 0 (s.beginAttempt l) :=
  ⟨rfl, rfl, rfl, (BitVec.add_zero _).symm, ht⟩

/-- Settles O51: 1999 ticks stay in START_LOW, which drives the line low; the 2000th enters RELEASE, which does not. -/
theorem startLowLastsExactly : Obligations.StartLowLastsExactly := by
  intro l s u hb hl ht hexec
  obtain rfl : s.beginAttempt l = u := Host.Outcome.next.inj ((execStart_of_accepted hb hl).symm.trans hexec)
  have hbegin := startLowFor_beginAttempt l ht
  constructor
  · intro k hk
    obtain ⟨t, hrun, h⟩ := run_startLowFor hbegin k hk
    exact ⟨t, hrun, h.phase, lineOe_eq_true_iff.mpr ⟨h.line.symm, .inl h.phase⟩,
      lineOut_eq_false_iff.mpr ⟨h.line.symm, h.phase⟩⟩
  · obtain ⟨t, hrun, h⟩ := run_startLowFor hbegin 1999 (by decide)
    obtain ⟨v, hstep, hphase, hstamp⟩ := h.step_ends
    exact ⟨v, (run_succ_of_run hrun).trans hstep, hphase, hstamp, by simp [State.lineOut, hphase]⟩

end Sys2Proof.Machine
end

section
/-! SUPPORT. The frame decoder (42_frame_decoder.md): the classifier, the packed frame and its bytes, the checksum, the
values, and the DECODE tick. -/

namespace Sys2Proof.Machine

/-! ### The classifier -/

/-- The classifier with the thresholds of 00_scope.md R6 as numbers (42_frame_decoder.md R162). -/
theorem classify_eq (d : Byte) :
    classify d = if d.toNat < 15 then .invalid else if d.toNat < 40 then .zero else if d.toNat < 60 then .invalid
      else if d.toNat < 90 then .one else .invalid := rfl

/-- Settles O36, by the branches of the classifier, each of which says its zone. -/
theorem classifierZones : Obligations.ClassifierZones := by
  intro d
  rw [classify_eq]
  split_ifs <;> simp only [true_iff, false_iff] <;> omega

/-! ### The packed frame and its bytes -/

/-- The bits of the packed frame, by the pulses in order of arrival (42_frame_decoder.md R164). -/
theorem pack_getLsbD (p : PulseFile) {i : Nat} (h : i < 40) :
    (pack p).getLsbD (39 - i) = (classify p[i] == .one) := by
  have hrev : Fin.rev (⟨39 - i, by omega⟩ : Fin 40) = ⟨i, h⟩ := Fin.ext (by simp only [Fin.val_rev]; omega)
  rw [pack, BitVec.getLsbD_ofFnBE, dif_pos (by omega), hrev]
  rfl

/-- The bits of a byte, by the bits of the frame (30_encoding.md R87). -/
theorem frameByte_getLsbD (f : Frame) (k : Nat) {j : Nat} (h : j < 8) :
    (frameByte f k).getLsbD j = f.getLsbD (32 - 8 * k + j) := by
  rw [frameByte, BitVec.getLsbD_extractLsb', decide_eq_true h, Bool.true_and]

/-- Settles O37: bit `7 - j` of byte k is bit `39 - (8k + j)` of the frame. -/
theorem packPutsFirstPulseHighest : Obligations.PackPutsFirstPulseHighest := by
  refine fun p => ⟨fun i h => pack_getLsbD p h, fun k j hk hj => ?_⟩
  have hbit : 32 - 8 * k + (7 - j) = 39 - (8 * k + j) := by omega
  rw [frameByte_getLsbD _ _ (by omega), hbit, pack_getLsbD p (by omega)]

/-! ### The checksum -/

/-- The checksum as a number (42_frame_decoder.md R165). -/
theorem checksum_toNat (f : Frame) : (checksum f).toNat =
    ((frameByte f 0).toNat + (frameByte f 1).toNat + (frameByte f 2).toNat + (frameByte f 3).toNat) % 256 := by
  simp only [checksum, BitVec.toNat_add, Nat.reducePow, Nat.mod_add_mod]

/-- The comparison of DECODE as one of numbers (42_frame_decoder.md R166). -/
theorem checksum_eq_iff {f : Frame} : checksum f = frameByte f 4 ↔ (frameByte f 4).toNat =
    ((frameByte f 0).toNat + (frameByte f 1).toNat + (frameByte f 2).toNat + (frameByte f 3).toNat) % 256 := by
  rw [← checksum_toNat, BitVec.toNat_inj, eq_comm]

/-- Settles O38: the sum of bytes wraps at 256. -/
theorem checksumIsByteSum : Obligations.ChecksumIsByteSum := checksum_toNat

/-- Flipping bits of a frame flips the same bits of its bytes. -/
theorem frameByte_xor (f g : Frame) (k : Nat) : frameByte (f ^^^ g) k = frameByte f k ^^^ frameByte g k :=
  BitVec.extractLsb'_xor

/-- A change outside the first four bytes leaves the checksum as it is. -/
theorem checksum_xor_of_frameByte_eq_zero {f g : Frame} (h : ∀ k < 4, frameByte g k = 0) :
    checksum (f ^^^ g) = checksum f := by
  have hbyte : ∀ k < 4, frameByte (f ^^^ g) k = frameByte f k := fun k hk => by
    rw [frameByte_xor, h k hk]
    exact BitVec.xor_zero
  rw [checksum, hbyte 0 (by decide), hbyte 1 (by decide), hbyte 2 (by decide), hbyte 3 (by decide), checksum]

/-- A frame that passes fails after any change of byte 4 alone (42_frame_decoder.md R166). -/
theorem checksum_xor_ne_of_passes {f g : Frame} (hpass : checksum f = frameByte f 4) (h : ∀ k < 4, frameByte g k = 0)
    (h4 : frameByte g 4 ≠ 0) : checksum (f ^^^ g) ≠ frameByte (f ^^^ g) 4 := by
  rw [checksum_xor_of_frameByte_eq_zero h, frameByte_xor, hpass]
  intro he
  have hxor : frameByte f 4 ^^^ 0 = frameByte f 4 ^^^ frameByte g 4 := BitVec.xor_zero.trans he
  exact h4 ((BitVec.xor_right_inj _).mp hxor).symm

/-- The lowest eight bits of a frame are in byte 4 and in no other (30_encoding.md R87). -/
theorem frameByte_lowBit {k : Nat} (hk : k < 8) :
    (∀ j < 4, frameByte (BitVec.ofNat 40 (2 ^ k)) j = 0) ∧ frameByte (BitVec.ofNat 40 (2 ^ k)) 4 ≠ 0 := by
  revert k
  decide

/-- Settles O39: the checksum stays and byte 4 does not. -/
theorem flippedChecksumBitIsCaught : Obligations.FlippedChecksumBitIsCaught := by
  intro f k hk hpass
  obtain ⟨hupper, h4⟩ := frameByte_lowBit hk
  exact checksum_xor_ne_of_passes hpass hupper h4

/-! ### The values -/

/-- The humidity is bytes 0 and 1 side by side (42_frame_decoder.md R170). -/
theorem humidity_eq_append (f : Frame) : humidity f = frameByte f 0 ++ frameByte f 1 :=
  (BitVec.extractLsb'_append_extractLsb'_eq_extractLsb' (start₂ := 32) (start₁ := 24) (len₁ := 8) (len₂ := 8)
    rfl).symm

/-- Settles O41: two bytes side by side as a number, which zero extension keeps. -/
theorem humidityIsFirstTwoBytes : Obligations.HumidityIsFirstTwoBytes := by
  refine fun f => ⟨?_, fun s => ?_⟩
  · rw [humidity_eq_append, BitVec.toNat_append, ← Nat.shiftLeft_add_eq_or_of_lt (BitVec.isLt _), Nat.shiftLeft_eq]
    rfl
  · exact (congrArg BitVec.toNat (readReg_humidity _)).trans (BitVec.toNat_setWidth_of_le (by decide))

/-- A 15-bit magnitude in 16 bits is that number, signed too. -/
theorem toInt_setWidth_magnitude (m : BitVec 15) : (m.setWidth 16).toInt = m.toNat := by
  have hm : (m.setWidth 16).toNat = m.toNat := BitVec.toNat_setWidth_of_le (by decide)
  rw [BitVec.toInt_eq_toNat_of_lt (by rw [hm]; omega), hm]

/-- The negation of a 15-bit magnitude does not overflow 16 bits (42_frame_decoder.md R171). -/
theorem toInt_neg_setWidth_magnitude (m : BitVec 15) : (-m.setWidth 16).toInt = -(m.toNat : Int) := by
  rw [BitVec.toInt_neg, toInt_setWidth_magnitude]
  exact Int.bmod_eq_of_le (by omega) (by omega)

/-- The temperature by the sign bit and the magnitude at their places in the frame (30_encoding.md R88). -/
theorem temperature_eq (f : Frame) : temperature f =
    if f.getLsbD 23 then -(f.extractLsb' 8 15).setWidth 16 else (f.extractLsb' 8 15).setWidth 16 := by
  have hmag : (tempRaw f).extractLsb' 0 15 = f.extractLsb' 8 15 := extractLsb'_extractLsb' f (by decide)
  have hsign : (tempRaw f).getLsbD 15 = f.getLsbD 23 := by
    rw [tempRaw, BitVec.getLsbD_extractLsb']
    rfl
  rw [temperature, hmag, hsign]
  exact congrArg (ite _ · _) (BitVec.zero_sub _)

/-- The temperature as an integer (42_frame_decoder.md R171). -/
theorem temperature_toInt (f : Frame) : (temperature f).toInt =
    if f.getLsbD 23 then -((f.extractLsb' 8 15).toNat : Int) else ((f.extractLsb' 8 15).toNat : Int) := by
  rw [temperature_eq]
  split_ifs
  · exact toInt_neg_setWidth_magnitude _
  · exact toInt_setWidth_magnitude _

/-- Settles O40: a magnitude of 15 bits bounds the value, which sign extension keeps. -/
theorem temperatureIsSignedMagnitude : Obligations.TemperatureIsSignedMagnitude := by
  intro f
  have hmag := (f.extractLsb' 8 15).isLt
  have hrange : -32767 ≤ (temperature f).toInt ∧ (temperature f).toInt ≤ 32767 := by
    rw [temperature_toInt]
    split_ifs <;> omega
  exact ⟨temperature_toInt f, hrange.1, hrange.2, fun s =>
    (congrArg BitVec.toInt (readReg_temperature _)).trans (BitVec.toInt_signExtend_of_le (by decide))⟩

/-! ### The DECODE tick -/

/-- DECODE with a pulse out of zone reports the lowest one (42_frame_decoder.md R160). -/
theorem exec_phaseDecode_of_some {s : State} {i : Nat} (h : firstInvalid s.pulse = some i) :
    exec .phaseDecode s = .next (s.advanceNow.raiseInvalidPulseWidth i) := by
  change execPhaseDecode s = _
  rw [execPhaseDecode, h]

/-- DECODE with every pulse in a bit zone decides on the packed frame (42_frame_decoder.md R161). -/
theorem exec_phaseDecode_of_none {s : State} (h : firstInvalid s.pulse = none) :
    exec .phaseDecode s = .next (s.advanceNow.acceptFrame (pack s.pulse)) := by
  change execPhaseDecode s = _
  rw [execPhaseDecode, h]

/-- Settles O42: the search for an out-of-zone pulse, then the comparison of the checksum. -/
theorem decodeTickByOutcome : Obligations.DecodeTickByOutcome := by
  refine fun s => ⟨fun i hi hbad hmin => ?_, fun hzone hne => ?_, fun hzone heq => ?_⟩
  · exact exec_phaseDecode_of_some (firstInvalid_eq_some hi hbad hmin)
  · rw [exec_phaseDecode_of_none (firstInvalid_eq_none_iff.mpr hzone), acceptFrame_mismatch hne]
    rfl
  · rw [exec_phaseDecode_of_none (firstInvalid_eq_none_iff.mpr hzone), acceptFrame_ok heq]
    rfl

/-- Settles O43, from the three cases of O42: the outcome of each, and a passing frame's byte 4 as a number. -/
theorem decodeOkExactlyOnChecksum : Obligations.DecodeOkExactlyOnChecksum := by
  intro s
  obtain ⟨hinvalid, hmismatch, hok⟩ := decodeTickByOutcome s
  cases hf : firstInvalid s.pulse with
  | some i =>
    obtain ⟨hi, hbad, hmin⟩ := firstInvalid_some hf
    exact ⟨_, hinvalid i hi hbad hmin, nofun, iff_of_true rfl ⟨i, hi, hbad⟩, nofun,
      fun hzone => absurd hbad (hzone i hi)⟩
  | none =>
    have hzone := firstInvalid_none hf
    have hnone : ¬ ∃ (i : Nat) (h : i < 40), classify s.pulse[i] = .invalid := fun ⟨i, hi, hbad⟩ => hzone i hi hbad
    by_cases hc : checksum (pack s.pulse) = frameByte (pack s.pulse) 4
    · exact ⟨_, hok hzone hc, nofun, iff_of_false nofun hnone, fun _ => rfl,
        fun _ => iff_of_true rfl (checksum_eq_iff.mp hc)⟩
    · exact ⟨_, hmismatch hzone hc, nofun, iff_of_false nofun hnone, nofun,
        fun _ => iff_of_false nofun (mt checksum_eq_iff.mpr hc)⟩

end Sys2Proof.Machine
end

section
/-! SUPPORT. The host's retry policy (43_host_procedures.md R192 to R194): the attempt it stops at. -/

namespace Sys2Proof.Machine

variable {attempt : Nat → ReadOutcome} {k more m : Nat}

/-- With no further attempt allowed, the host stops at this one. -/
theorem retryFrom_last : retryFrom attempt k 0 = { outcome := attempt k, attempts := k + 1, delays := k } := rfl

/-- An attempt that is Ok is the last one. -/
theorem retryFrom_of_ok (h : attempt k = .ok) :
    retryFrom attempt k (more + 1) = { outcome := attempt k, attempts := k + 1, delays := k } := by
  rw [retryFrom, if_pos h, h]

/-- After a failed attempt the host goes on with the next one. -/
theorem retryFrom_of_failed (h : attempt k ≠ .ok) :
    retryFrom attempt k (more + 1) = retryFrom attempt (k + 1) more := by
  rw [retryFrom, if_neg h]

/-- From attempt `k` on, the host stops at one attempt `n` among those allowed: those before it failed, and it is Ok
unless it is the last allowed. -/
theorem retryFrom_stops (attempt : Nat → ReadOutcome) (k more : Nat) :
    ∃ n, k ≤ n ∧ n ≤ k + more ∧ retryFrom attempt k more = { outcome := attempt n, attempts := n + 1, delays := n } ∧
      (∀ j, k ≤ j → j < n → attempt j ≠ .ok) ∧ (n < k + more → attempt n = .ok) := by
  induction more generalizing k with
  | zero => exact ⟨k, le_rfl, le_rfl, retryFrom_last, by omega, by omega⟩
  | succ more ih =>
    by_cases hk : attempt k = .ok
    · exact ⟨k, le_rfl, by omega, retryFrom_of_ok hk, by omega, fun _ => hk⟩
    · obtain ⟨n, hkn, hn, hres, hfailed, hok⟩ := ih (k + 1)
      refine ⟨n, by omega, by omega, (retryFrom_of_failed hk).trans hres, fun j hkj hjn => ?_, fun h => hok (by omega)⟩
      obtain rfl | hlt := hkj.eq_or_lt
      · exact hk
      · exact hfailed j hlt hjn

/-- The host stops at one of the `m` allowed attempts, counted from 0. -/
theorem retry_stops (attempt : Nat → ReadOutcome) (hm : 1 ≤ m) :
    ∃ n < m, retry m attempt = { outcome := attempt n, attempts := n + 1, delays := n } ∧
      (∀ j < n, attempt j ≠ .ok) ∧ (n + 1 < m → attempt n = .ok) := by
  obtain ⟨n, -, hn, hres, hfailed, hok⟩ := retryFrom_stops attempt 0 (m - 1)
  exact ⟨n, by omega, hres, fun j => hfailed j j.zero_le, fun h => hok (by omega)⟩

/-- Settles O59, by the attempt the host stops at: every clause reads off its result. -/
theorem retryStopsAtFirstOk : Obligations.RetryStopsAtFirstOk := by
  intro m attempt hm
  obtain ⟨n, hn, hres, hfailed, hok⟩ := retry_stops attempt hm
  rw [hres]
  exact ⟨n.succ_pos, hn, rfl, rfl, hfailed, hok⟩

end Sys2Proof.Machine
end

section
/-! SUPPORT. Faults and the end of an attempt (60_exceptions.md): no step of the invariant stops, and an attempt that
ends reports one outcome, by the phase it ends in. -/

namespace Sys2Proof.Machine

/-! ### No step stops -/

/-- Every host operation completes, a rejected START too (40_host_interface.md R101 to R106). -/
theorem exists_next_hostOperation {i : Instr} (hi : i.isBus = true) (s : State) : ∃ t, exec i s = .next t := by
  cases i with
  | start l =>
    rcases Bool.eq_false_or_eq_true s.busy with hb | hb
    · exact ⟨_, execStart_of_busy l hb⟩
    · rcases Nat.lt_or_ge l.toNat s.numLines with hl | hl
      · exact ⟨_, execStart_of_accepted hb hl⟩
      · exact ⟨_, execStart_of_outOfRange hb hl⟩
  | setline l =>
    rcases Bool.eq_false_or_eq_true s.busy with hb | hb
    · exact ⟨_, execSetline_of_busy l hb⟩
    · exact ⟨_, execSetline_of_not_busy l hb⟩
  | wrIgn _ _ | rd _ => exact ⟨_, rfl⟩
  | phaseIdle | phaseStartLow | phaseRelease | phaseRespLow | phaseRespHigh | phaseRespEnd | phaseBitLow
  | phaseBitHigh | phaseDecode | phaseReserved _ => cases hi

/-- In a state of the invariant the phase is legal and BIT_HIGH has a place for its pulse, so a tick goes on. -/
theorem State.Inv.tick_never_stops {s : State} (h : s.Inv) : ∃ t, exec (decodePhase s.phase) s = .next t := by
  obtain ⟨-, -, hbit, -⟩ := h.index
  exact exists_next_tick h.phase fun hp => hbit (.inr hp)

/-- Settles O48, by the next input: a tick, drawn or listed, a host access, or a reset cycle. -/
theorem invariantStatesNeverStop : Obligations.InvariantStatesNeverStop := by
  intro s h
  cases hin : s.inputs with
  | nil =>
    rw [step_draw hin]
    exact (h.with_environment s.cmderr (Config.freeLineIn s.draws) s.inputs (s.draws + 1) s.rdata).tick_never_stops
  | cons i rest =>
    cases i with
    | tick levels =>
      rw [step_tick hin]
      exact (h.with_environment s.cmderr levels rest s.draws s.rdata).tick_never_stops
    | host tr =>
      rw [step_host hin]
      exact exists_next_hostOperation (decodeTransaction_isBus tr) _
    | reset access => exact ⟨_, step_reset hin⟩

/-! ### The end of an attempt -/

/-- A decoded frame is never a Timeout (42_frame_decoder.md R160). -/
theorem acceptFrame_outcome_ne_timeout (s : State) (f : Frame) : (s.acceptFrame f).outcome ≠ .timeout := by
  by_cases hc : checksum f = frameByte f 4
  · rw [acceptFrame_ok hc]
    exact nofun
  · rw [acceptFrame_mismatch hc]
    exact nofun

/-- A tick that ends an attempt reports a Timeout of its wait phase, or is DECODE and reports anything else
(60_exceptions.md R212, 42_frame_decoder.md R169). -/
theorem TickEffect.outcome_of_ended {s t : State} (h : TickEffect s (decodePhase s.phase) t) (hb : s.busy = true)
    (ht : t.busy = false) :
    (t.outcome = .timeout ∧ 3 ≤ s.phase.toNat ∧ s.phase.toNat ≤ 7 ∧ t.failphase = s.phase) ∨
    (t.outcome ≠ .timeout ∧ s.phase = Phase.decode) := by
  cases h with
  | stays | enters | firstBit | captures => exact absurd (ht.symm.trans hb) Bool.false_ne_true
  | timesOut p hi hw =>
    obtain rfl := decodePhase_injective hi
    exact .inl ⟨rfl, hw.1, hw.2, rfl⟩
  | findsInvalid hi => exact .inr ⟨nofun, decodePhase_injective (d := Phase.decode) hi⟩
  | decodes hi =>
    exact .inr ⟨acceptFrame_outcome_ne_timeout _ _, decodePhase_injective (d := Phase.decode) hi⟩

/-- A host access during an attempt leaves it running (40_host_interface.md R102, R104). -/
theorem busy_of_hostOperation {i : Instr} {s t : State} (hi : i.isBus = true) (hb : s.busy = true)
    (h : exec i s = .next t) : t.busy = true := by
  obtain ⟨e, v, hnext⟩ := hostNeverDisturbsAttempt i s hi hb
  rw [hnext] at h
  cases h
  exact hb

/-- Settles O54, by agent: a host access leaves the attempt running, and a tick that ends it leads into a state of the
invariant with DONE 1, whose results are those of the outcome its phase reports. -/
theorem attemptEndsWithOneReport : Obligations.AttemptEndsWithOneReport := by
  intro s t h hb hstep ht hreset
  have hhost (tr : Transaction) (rest : List Input) : s.inputs ≠ .host tr :: rest := by
    intro hin
    rw [step_host hin] at hstep
    have hbusy := busy_of_hostOperation (s := { s with inputs := rest }) (decodeTransaction_isBus tr) hb hstep
    exact absurd (ht.symm.trans hbusy) Bool.false_ne_true
  obtain ⟨access, rest, hin, -⟩ | ⟨tr, rest, hin, -⟩ | ⟨levels, d, hexec⟩ := step_cases hstep
  · exact absurd hin (hreset access rest)
  · exact absurd hin (hhost tr rest)
  · have heffect := tickEffect_of_exec (decodePhase_isBus _) hexec
    obtain ⟨hbusy, -, -⟩ | ⟨-, hdone, hidle, -⟩ := heffect.flags
    · exact absurd (ht.symm.trans (hbusy.trans hb)) Bool.false_ne_true
    · refine ⟨hhost, ⟨hb, ht, hdone⟩, hidle, (everyStepKeepsInvariant s t h hstep).reported hdone, ?_⟩
      obtain ⟨ho, hwait⟩ | ⟨ho, hp⟩ := heffect.outcome_of_ended hb ht
      · exact ⟨fun _ => hwait, fun hne => absurd ho hne⟩
      · exact ⟨fun heq => absurd heq ho, fun _ => hp⟩

end Sys2Proof.Machine
end

section
/-! SUPPORT. Reset and hazards (70_reset_and_hazards.md): the reset cycle with the access in it, what the results read
during an attempt, and the least ticks of an attempt. -/

namespace Sys2Proof.Machine

/-! ### The reset cycle -/

/-- A read transaction is RD of its word index, and no write is (30_encoding.md R81). -/
theorem decodeTransaction_eq_rd_iff {t : Transaction} {a : WordIdx} :
    decodeTransaction t = .rd a ↔ t.we = false ∧ t.wordIdx = a := by
  cases h : t.we with
  | false => simp [decodeTransaction_of_read h]
  | true =>
    refine iff_of_false (fun hrd => ?_) (by simp)
    by_cases ha : t.wordIdx = 0
    · rw [decodeTransaction_of_ctrl h ha] at hrd
      split_ifs at hrd
    · rw [decodeTransaction_of_wrIgn h ha] at hrd
      cases hrd

/-- A write in a reset cycle has no effect (70_reset_and_hazards.md R240). -/
theorem accessInReset_of_write (s : State) {t : Transaction} (h : t.we = true) : s.accessInReset (some t) = s :=
  if_pos h

/-- A read in a reset cycle is answered (70_reset_and_hazards.md R240). -/
theorem accessInReset_of_read (s : State) {t : Transaction} (h : t.we = false) :
    s.accessInReset (some t) = { s with rdata := s.readReg t.wordIdx } :=
  if_neg (by simp [h])

/-- After a reset cycle every register reads its reset value, since no read shows the model's own fields. -/
theorem readReg_resetStep (s : State) (a : WordIdx) : s.resetStep.readReg a = if a = 2 then 0x0000003F else 0 :=
  readReg_reset a

/-- Settles O45, by the access in the cycle: none, a write, or a read of a register at its reset value. -/
theorem resetCycleWins : Obligations.ResetCycleWins := by
  intro s access rest hin
  rw [step_reset hin]
  cases access with
  | none => exact ⟨s.rdata, rfl, nofun, fun _ => rfl⟩
  | some t =>
    cases hwe : t.we with
    | true =>
      rw [accessInReset_of_write _ hwe]
      refine ⟨s.rdata, rfl, fun u a hu ha => ?_, fun _ => rfl⟩
      cases hu
      obtain ⟨hread, -⟩ := decodeTransaction_eq_rd_iff.mp ha
      exact absurd (hread.symm.trans hwe) Bool.false_ne_true
    | false =>
      rw [accessInReset_of_read _ hwe, readReg_resetStep]
      refine ⟨_, rfl, fun u a hu ha => ?_, fun hne => absurd (decodeTransaction_of_read hwe) (hne t _ rfl)⟩
      cases hu
      obtain ⟨-, rfl⟩ := decodeTransaction_eq_rd_iff.mp ha
      rfl

/-! ### What the results read during an attempt -/

/-- Settles O58: while BUSY is 1 the result registers hold what START put there, and a read shows just that. -/
theorem resultsReadClearedWhileBusy : Obligations.ResultsReadClearedWhileBusy := by
  intro s h hb
  have hcl : s.Cleared := h.cleared_of_busy hb
  refine ⟨(readReg_diag s).trans ?diag, (readReg_frameW0 s).trans ?frameW0, (readReg_frameW1 s).trans ?frameW1,
    (readReg_humidity s).trans ?humidity, (readReg_temperature s).trans ?temperature⟩
  case diag => rw [State.diagWord, hcl.csumCalc, hcl.failphase, hcl.failbit]; rfl
  case frameW0 => rw [hcl.frame]; rfl
  case frameW1 => rw [hcl.frame]; rfl
  case humidity => rw [hcl.hum]; rfl
  case temperature => rw [hcl.temp]; rfl

/-! ### The least age of an attempt -/

/-- The least ticks after its START at which an attempt can enter a phase at bit index `b`: START_LOW and RELEASE
take their full length, and every wait advances at its first tick (70_reset_and_hazards.md R253). -/
def earliestEntry (p : PhaseCode) (b : Nat) : Nat :=
  match p.toNat with
  | 1 => 0
  | 2 => Config.params.startLowUs
  | 3 => Config.params.startLowUs + Config.params.releaseUs
  | 4 => Config.params.startLowUs + Config.params.releaseUs + 1
  | 5 => Config.params.startLowUs + Config.params.releaseUs + 2
  | 6 => Config.params.startLowUs + Config.params.releaseUs + 3 + 2 * b
  | 7 => Config.params.startLowUs + Config.params.releaseUs + 3 + 2 * b + 1
  | _ => Config.params.startLowUs + Config.params.releaseUs + 3 + 2 * Config.params.nbits

theorem earliestEntry_startLow (b : Nat) : earliestEntry Phase.startLow b = 0 := rfl
theorem earliestEntry_release (b : Nat) : earliestEntry Phase.release b = 2000 := rfl
theorem earliestEntry_respLow (b : Nat) : earliestEntry Phase.respLow b = 2001 := rfl
theorem earliestEntry_respHigh (b : Nat) : earliestEntry Phase.respHigh b = 2002 := rfl
theorem earliestEntry_respEnd (b : Nat) : earliestEntry Phase.respEnd b = 2003 := rfl
theorem earliestEntry_bitLow (b : Nat) : earliestEntry Phase.bitLow b = 2004 + 2 * b := rfl
theorem earliestEntry_bitHigh (b : Nat) : earliestEntry Phase.bitHigh b = 2004 + 2 * b + 1 := rfl
theorem earliestEntry_decode (b : Nat) : earliestEntry Phase.decode b = 2084 := rfl

/-- The bound of 70_reset_and_hazards.md R253 with the values of 00_scope.md R6. -/
theorem minAttemptTicks_eq : minAttemptTicks = 2085 := rfl

/-- No wait phase is entered before START_LOW and RELEASE are over. -/
theorem le_earliestEntry_of_wait {p : PhaseCode} (hw : 3 ≤ p.toNat ∧ p.toNat ≤ 7) (b : Nat) :
    2001 ≤ earliestEntry p b := by
  rw [earliestEntry]
  obtain ⟨h3, h7⟩ := hw
  interval_cases p.toNat <;> simp only [Config.params] <;> omega

/-- The least ticks after its START at which an attempt can stand as far into its phase as it does. -/
def State.leastAge (s : State) : Nat := earliestEntry s.phase s.bitidx.toNat + s.sinceEntry

/-- What a tick does for the length of the attempt: it leaves BUSY and adds at most one to the least age, or falls when
the attempt may end (70_reset_and_hazards.md R253). -/
def AgesByOne (s t : State) : Prop :=
  t.busy = s.busy ∧ t.leastAge ≤ s.leastAge + 1 ∨ minAttemptTicks ≤ s.leastAge + 1

/-- `e` is at most one more than the time since entry, also where it wraps. -/
theorem elapsed_toNat_le (s : State) : s.elapsed.toNat ≤ s.sinceEntry + 1 :=
  (elapsed_toNat s).trans_le (Nat.mod_le _ _)

theorem agesByOne_advanceNow (s : State) : AgesByOne s s.advanceNow :=
  .inl ⟨rfl, Nat.add_le_add_left (elapsed_toNat_le s) _⟩

/-- A tick that enters the phase `q` at bit index `b` adds at most one where `q` may be entered so early. -/
theorem agesByOne_of_enter {s t : State} {p : PhaseCode} (q : PhaseCode) (b : Nat) (hp : s.phase = p)
    (hq : t.phase = q) (hb : t.bitidx.toNat = b) (hbusy : t.busy = s.busy) (hzero : t.sinceEntry = 0)
    (hle : earliestEntry q b ≤ earliestEntry p s.bitidx.toNat + s.sinceEntry + 1) : AgesByOne s t := by
  subst hp hq hb
  exact .inl ⟨hbusy, by rwa [State.leastAge, hzero]⟩

/-! ### The ticks, phase by phase -/

theorem agesByOne_startLow {s t : State} (hp : s.phase = Phase.startLow)
    (h : exec (decodePhase Phase.startLow) s = .next t) : AgesByOne s t := by
  obtain ⟨he, rfl⟩ | ⟨-, rfl⟩ := exec_phaseStartLow_cases h
  · refine agesByOne_of_enter Phase.release s.bitidx.toNat hp rfl rfl rfl (sinceEntry_enterPhase _ _) ?_
    rw [earliestEntry_release, earliestEntry_startLow, Nat.zero_add]
    exact he.trans (elapsed_toNat_le s)
  · exact agesByOne_advanceNow s

theorem agesByOne_release {s t : State} (hp : s.phase = Phase.release)
    (h : exec (decodePhase Phase.release) s = .next t) : AgesByOne s t := by
  obtain ⟨-, rfl⟩ | ⟨-, rfl⟩ := exec_phaseRelease_cases h
  · refine agesByOne_of_enter Phase.respLow s.bitidx.toNat hp rfl rfl rfl (sinceEntry_enterPhase _ _) ?_
    rw [earliestEntry_respLow, earliestEntry_release]
    omega
  · exact agesByOne_advanceNow s

/-- A wait phase times out past the least length of an attempt, since its bound alone exceeds what the phases after
RELEASE take at their shortest; otherwise it stays or advances. -/
theorem WaitCases.agesByOne {s t : State} {p : PhaseCode} {lvl : Bool} {move : State → State → Prop}
    (h : WaitCases s t p lvl move) (hp : s.phase = p) (hw : 3 ≤ p.toNat ∧ p.toNat ≤ 7)
    (hmove : move s.advanceNow t → AgesByOne s t) : AgesByOne s t := by
  subst hp
  obtain ⟨he, -⟩ | ⟨-, -, hm⟩ | ⟨-, -, rfl⟩ := h
  · have hwait : 100 < s.sinceEntry + 1 := he.trans_le (elapsed_toNat_le s)
    have hentry := le_earliestEntry_of_wait hw s.bitidx.toNat
    refine .inr ?_
    rw [State.leastAge, minAttemptTicks_eq]
    omega
  · exact hmove hm
  · exact agesByOne_advanceNow s

/-- A wait phase that advances by entering the phase `q`, which may be entered one tick later. -/
theorem WaitCases.agesByOne_enterPhase {s t : State} {p q : PhaseCode} {lvl : Bool}
    (h : WaitCases s t p lvl fun u v => v = u.enterPhase q) (hp : s.phase = p) (hw : 3 ≤ p.toNat ∧ p.toNat ≤ 7)
    (hle : earliestEntry q s.bitidx.toNat ≤ earliestEntry p s.bitidx.toNat + 1) : AgesByOne s t := by
  refine h.agesByOne hp hw ?_
  rintro rfl
  exact agesByOne_of_enter q s.bitidx.toNat hp rfl rfl rfl (sinceEntry_enterPhase _ _) (by omega)

theorem agesByOne_respEnd {s t : State} (hp : s.phase = Phase.respEnd)
    (h : exec (decodePhase Phase.respEnd) s = .next t) : AgesByOne s t := by
  refine (exec_phaseRespEnd_cases h).agesByOne hp (by decide) ?_
  rintro rfl
  refine agesByOne_of_enter Phase.bitLow 0 hp rfl rfl rfl (sinceEntry_enterPhase s.advanceNow Phase.bitLow) ?_
  rw [earliestEntry_bitLow, earliestEntry_respEnd]
  omega

/-- The capture of bit `i` goes to DECODE after bit 39 and to the low part of bit `i + 1` before. -/
theorem agesByOne_bitHigh {s t : State} (hp : s.phase = Phase.bitHigh)
    (h : exec (decodePhase Phase.bitHigh) s = .next t) : AgesByOne s t := by
  refine (exec_phaseBitHigh_cases h).agesByOne hp (by decide) ?_
  rintro ⟨hb, rfl⟩
  have hsucc : (s.bitidx + 1).toNat = s.bitidx.toNat + 1 := by bv_omega
  by_cases hlast : s.bitidx.toNat + 1 = Config.params.nbits
  · have hforty : s.bitidx.toNat + 1 = 40 := hlast
    rw [if_pos hlast]
    refine agesByOne_of_enter Phase.decode 40 hp rfl (hsucc.trans hforty) rfl (sinceEntry_enterPhase _ _) ?_
    rw [earliestEntry_decode, earliestEntry_bitHigh]
    omega
  · rw [if_neg hlast]
    refine agesByOne_of_enter Phase.bitLow _ hp rfl hsucc rfl (sinceEntry_enterPhase _ _) ?_
    rw [earliestEntry_bitLow, earliestEntry_bitHigh]
    omega

/-- DECODE, whose tick ends the attempt, is entered at the 2084th tick at the earliest. -/
theorem agesByOne_decode {s t : State} (hp : s.phase = Phase.decode) : AgesByOne s t := by
  refine .inr ?_
  rw [State.leastAge, hp, earliestEntry_decode, minAttemptTicks_eq]
  omega

/-- Every tick of a running attempt adds at most one to its least age, or falls when the attempt may end. -/
theorem agesByOne_tick {s t : State} (hr : s.Running) (h : exec (decodePhase s.phase) s = .next t) : AgesByOne s t := by
  obtain hp | hp | hp | hp | hp | hp | hp | hp | hp := phaseCode_cases hr.legal <;> rw [hp] at h
  · exact absurd hp hr.notIdle
  · exact agesByOne_startLow hp h
  · exact agesByOne_release hp h
  · exact (exec_phaseRespLow_cases h).agesByOne_enterPhase hp (by decide) le_rfl
  · exact (exec_phaseRespHigh_cases h).agesByOne_enterPhase hp (by decide) le_rfl
  · exact agesByOne_respEnd hp h
  · exact (exec_phaseBitLow_cases h).agesByOne_enterPhase hp (by decide) le_rfl
  · exact agesByOne_bitHigh hp h
  · exact agesByOne_decode hp

/-! ### The run before the attempt may end -/

/-- `k` ticks after its START the attempt runs on in `t`, with only ticks to come. -/
structure RunsOnAfter (k : Nat) (t : State) : Prop where
  running : t.Running
  busy : t.busy = true
  onlyTicks : t.OnlyTicks
  leastAge : t.leastAge ≤ k

/-- An accepted START begins an attempt of no age. -/
theorem runsOnAfter_beginAttempt {s : State} {l : LineIdx} (hn : Config.NumLinesOk s.numLines)
    (hl : l.toNat < s.numLines) (ht : s.OnlyTicks) : RunsOnAfter 0 (s.beginAttempt l) :=
  ⟨(inv_beginAttempt hn hl).running rfl, rfl, ht, by
    rw [State.leastAge, State.beginAttempt_phase, earliestEntry_startLow, State.beginAttempt,
      sinceEntry_enterPhase]⟩

/-- Before its least length an attempt runs on through every tick. -/
theorem RunsOnAfter.step_runsOn {k : Nat} {t : State} (h : RunsOnAfter k t) (hk : k + 1 < minAttemptTicks) :
    ∃ v, step t = .next v ∧ RunsOnAfter (k + 1) v := by
  obtain ⟨levels, d, hexec⟩ := step_of_onlyTicks h.onlyTicks
  obtain ⟨v, hstep, hticks, hmove⟩ := step_of_running h.running h.onlyTicks
  have hage : AgesByOne { t with inputs := t.inputs.tail, lineIn := levels, draws := d } v :=
    agesByOne_tick ⟨h.running.notIdle, h.running.legal, h.running.inTime, h.running.index⟩ (hexec.symm.trans hstep)
  have hnext : t.leastAge + 1 ≤ k + 1 := Nat.succ_le_succ h.leastAge
  obtain ⟨hbusy, hle⟩ | hmin := hage
  · have hb : v.busy = true := hbusy.trans h.busy
    obtain ⟨hend, -⟩ | ⟨hrun, -⟩ := hmove
    · exact absurd (hend.symm.trans hb) Bool.false_ne_true
    · exact ⟨v, hstep, hrun, hb, hticks, hle.trans hnext⟩
  · exact absurd (hmin.trans hnext) (Nat.not_le.mpr hk)

/-- From an accepted START, each tick before its least length leaves the attempt running. -/
theorem run_runsOnAfter {u : State} (h : RunsOnAfter 0 u) (k : Nat) :
    k < minAttemptTicks → ∃ t, Sys2Proof.core.run k u = .next t ∧ RunsOnAfter k t := by
  induction k with
  | zero => exact fun _ => ⟨u, rfl, h⟩
  | succ k ih =>
    intro hk
    obtain ⟨t, hrun, ht⟩ := ih (Nat.lt_of_succ_lt hk)
    obtain ⟨v, hstep, hv⟩ := ht.step_runsOn hk
    exact ⟨v, (run_succ_of_run hrun).trans hstep, hv⟩

/-- Settles O50: an attempt is never older than the ticks since its START, and one younger than its least length does
not end. -/
theorem attemptLastsAtLeast : Obligations.AttemptLastsAtLeast := by
  intro l s u k hb hn hl ht hexec hk
  obtain rfl : s.beginAttempt l = u := Host.Outcome.next.inj ((execStart_of_accepted hb hl).symm.trans hexec)
  obtain ⟨t, hrun, h⟩ := run_runsOnAfter (runsOnAfter_beginAttempt hn hl ht) k hk
  exact ⟨t, hrun, h.busy⟩

end Sys2Proof.Machine
end
